-- ==== Sys2Proof/Word.lean ====
section
/-! DEFINITION. The words of PEAKTOP: an instruction word, a byte, a 64-bit special register, the container of one
register, and the eight machine modes (`spec/00_scope.md` R14). -/
namespace Sys2Proof

/-- An instruction word, and a 32-bit special register (R30, R110). -/
abbrev Word := BitVec 32

/-- A 64-bit special register, and the INSTRUCTION COUNTER's container (R28, R30). -/
abbrev DWord := BitVec 64

/-- One byte of memory (R83). -/
abbrev Byte := BitVec 8

/-- The container of one register: 1024 bits, the widest register the ISA allows (R21). A file whose registers are
narrower uses the low bits only. -/
abbrev RegBits := BitVec 1024

/-- The eight machine modes (R14): the width an instruction works at. -/
inductive MMode where
  | byte | half | word | dword | quad | sent | dsent | qsent
deriving DecidableEq, Repr, Inhabited

/-- The MMODE code of a mode (R14, Table 1). -/
def MMode.code : MMode → Nat
  | .byte => 0 | .half => 1 | .word => 2 | .dword => 3
  | .quad => 4 | .sent => 5 | .dsent => 6 | .qsent => 7

/-- The mode an MMODE code names (R14). -/
def MMode.ofCode : Nat → MMode
  | 0 => .byte | 1 => .half | 2 => .word | 3 => .dword
  | 4 => .quad | 5 => .sent | 6 => .dsent | _ => .qsent

/-- B(m) = 2^m, the width of a mode in bytes (R14). -/
def MMode.bytes : MMode → Nat
  | .byte => 1 | .half => 2 | .word => 4 | .dword => 8
  | .quad => 16 | .sent => 32 | .dsent => 64 | .qsent => 128

/-- W(m) = 8 * 2^m, the width of a mode in bits (R14). -/
abbrev MMode.width (m : MMode) : Nat := 8 * m.bytes

end Sys2Proof
end

