-- ==== Sys2Proof/Config.lean ====
section
/-! DEFINITION. The parameters of an implementation (`spec/00_scope.md` R10, `spec/92_eei_decisions.md` P1 to P3), the
reference configuration D1, and the values the spec leaves free. -/
namespace Sys2Proof

/-- A floating point format (R281): exponent and mantissa widths; the sign is one bit more. -/
structure FpFormat where
  expBits : Nat
  manBits : Nat
deriving DecidableEq, Repr, Inhabited

/-- The width of a format, 1 + E + M (R281). -/
def FpFormat.width (f : FpFormat) : Nat := 1 + f.expBits + f.manBits

/-- The rounding modes that FP ROUNDING MODE names (R59, R284). -/
inductive RoundingMode where
  | nearestEven | nearestOdd | nearestAway | nearestPositive | nearestNegative | nearestZero
  | zeroAway | positive | negative | toZero
deriving DecidableEq, Repr, Inhabited

/-- The implementation parameters of R10. The file sizes and widths describe the machine; `State` holds the files
themselves. DESIGN CHOICE (log 1): the parameters are plain data that the state carries and no step changes. -/
structure Config where
  /-- GPR_WIDTH, 8 to 1024. -/
  gprWidth : Nat
  /-- NUM_GPR, 3 to 64, per bank. -/
  numGpr : Nat
  /-- NUM_BANKS, 1 to 16. -/
  numBanks : Nat
  /-- ALU_WIDTH as a Table 1 mode; its width bounds the bit numbers of R262. -/
  aluMode : MMode
  /-- NATURAL_MODE (R12). -/
  naturalMode : MMode
  /-- The widest mode the arithmetic/logic and branch instructions have (R134); at least the natural mode (R11). -/
  topMode : MMode
  /-- MAX_TRANSFER (R91). -/
  maxTransfer : MMode
  /-- IC_WIDTH (R28). R10 leaves open whether it is the physical or the virtual instruction address width less 2: the
  model ties it to neither (DESIGN CHOICE, log 46). -/
  icWidth : Nat
  /-- PHYS_ADDR_WIDTH (R83). -/
  physAddrWidth : Nat
  /-- PID_WIDTH (R47). -/
  pidWidth : Nat
  /-- SEPARATE_ID (R80). -/
  separateId : Bool
  /-- FPU_TYPE code (R33); 0 means no FPU. -/
  fpuType : BitVec 4
  /-- The widest FP format, that of the FP machine mode (R281, R282). -/
  fp : FpFormat
  /-- FP_FORMATS: the modes whose format FEXT and FSQZ convert (R315). -/
  fpFormats : List MMode
  /-- HAS_FPR (R62). -/
  hasFpr : Bool
  /-- FPR_WIDTH. The spec states no range for it: `Config.inRange` holds it to 8 to 1024 bits, the model's choice
  (DESIGN CHOICE, log 41). -/
  fprWidth : Nat
  /-- NUM_FPR. -/
  numFpr : Nat
  /-- With an FPR file: whether the integer side of FF2I and FI2F is an FPR register (N20 leaves it open; log 18). -/
  intSideInFpr : Bool
  /-- HAS_MUL. -/
  hasMul : Bool
  /-- HAS_DIV. -/
  hasDiv : Bool
  /-- HAS_DSP (R61). -/
  hasDsp : Bool
  /-- DSP_WIDTH as a Table 1 mode. -/
  dspMode : MMode
  /-- NUM_DSP. -/
  numDsp : Nat
  /-- SPC_WIDTH (R30). `Config.inRange` holds it to 32, the one width whose layout the spec gives (N10; log 6). -/
  spcWidth : Nat
  /-- NUM_SPC: the 27 entries of the recommended layout and those the implementation defines beyond them (R30, R57). -/
  numSpc : Nat
  /-- The entries from spc27 on that user mode may not write (R57, U17; log 6). -/
  spcUserReadOnly : List Nat
  /-- The entries from spc27 on that no mode may write (R57, U17; log 6). -/
  spcReadOnly : List Nat
  /-- Whether a MOV to the special register file checks for an unimplemented GPR bank (4) before the width (5) and the
  registers (6), in the order of the exceptions' numbers (R409, D19), or after them, as the list of R173 has it
  (log 12). -/
  bankCheckFirst : Bool
  /-- ARCH_NUMBER (R33). -/
  archNumber : BitVec 20
  /-- MEM_ENDIAN (R84): true is big-endian. -/
  bigEndian : Bool
  /-- WAIT_TIMER_WIDTH (R383). -/
  waitTimerWidth : Nat
  /-- The rest of IMPLEMENTED (R5, R10): words w with w AND mask = value are valid but not implemented.
  `Config.regular` says what R11 (a) and (b) ask of it (log 43). -/
  lacking : List (Word × Word)
deriving DecidableEq, Repr

/-- The reference configuration (R10, R282, D1). -/
def Config.reference : Config where
  gprWidth := 32
  numGpr := 32
  numBanks := 1
  aluMode := .word
  naturalMode := .word
  topMode := .word
  maxTransfer := .dword
  icWidth := 30
  physAddrWidth := 32
  pidWidth := 1
  separateId := false
  fpuType := 2
  fp := ⟨8, 23⟩
  fpFormats := [.half, .word]
  hasFpr := false
  fprWidth := 0
  numFpr := 0
  intSideInFpr := false
  hasMul := true
  hasDiv := true
  hasDsp := false
  dspMode := .byte
  numDsp := 1
  spcWidth := 32
  numSpc := 27
  spcUserReadOnly := []
  spcReadOnly := []
  bankCheckFirst := true
  archNumber := 0
  bigEndian := false
  waitTimerWidth := 32
  lacking := []

/-- FPU_TYPE is one of the 11 codes of R33, and the widest FP format is the one the code names (R281): an IEEE format,
or, for an extended FPU, one of more bits than the code says (U14). Without an FPU there is no format to hold to it. -/
def Config.fpuLegal (c : Config) : Bool :=
  match c.fpuType.toNat with
  | 0 => true
  | 1 => c.fp == ⟨5, 10⟩
  | 2 => c.fp == ⟨8, 23⟩
  | 3 => c.fp == ⟨11, 52⟩
  | 4 => c.fp == ⟨15, 112⟩
  | 5 => c.fp == ⟨19, 236⟩
  | 9 => decide (16 < c.fp.width)
  | 10 => decide (32 < c.fp.width)
  | 11 => decide (64 < c.fp.width)
  | 12 => decide (128 < c.fp.width)
  | 13 => decide (256 < c.fp.width)
  | _ => false

/-- The legal ranges of R10, with R11 (c), and the widest mode at least the natural one (R11 (a)). The range of
FPR_WIDTH, 8 to 1024, is the model's own (DESIGN CHOICE, log 41: R10 states none); IC_WIDTH is held to the 64 bits of
the return pointers (log 8) and to no address width (DESIGN CHOICE, log 46), SPC_WIDTH to the recommended 32 (log 6). -/
def Config.inRange (c : Config) : Bool :=
  decide (8 ≤ c.gprWidth ∧ c.gprWidth ≤ 1024 ∧ 3 ≤ c.numGpr ∧ c.numGpr ≤ 64 ∧ 1 ≤ c.numBanks ∧ c.numBanks ≤ 16
    ∧ 1 ≤ c.physAddrWidth ∧ c.physAddrWidth ≤ 64 ∧ 1 ≤ c.pidWidth ∧ c.pidWidth ≤ 64
    ∧ 1 ≤ c.icWidth ∧ c.icWidth ≤ 64 ∧ c.naturalMode.code ≤ c.topMode.code
    ∧ (c.hasDsp = true → 1 ≤ c.numDsp ∧ c.numDsp ≤ 64)
    ∧ (c.hasFpr = true → 1 ≤ c.numFpr ∧ c.numFpr ≤ 64 ∧ 8 ≤ c.fprWidth ∧ c.fprWidth ≤ 1024)
    ∧ c.spcWidth = 32 ∧ 27 ≤ c.numSpc ∧ c.numSpc ≤ 64) && c.fpuLegal

/-- Whether a word is in the set that a mask and a value name. -/
def wordIn (w : Word) (p : Word × Word) : Bool := (w &&& p.1) == p.2

/-- Whether the implementation leaves a word out beyond its modes and units (IMPLEMENTED, R10, log 11). -/
def Config.leavesOut (c : Config) (w : Word) : Bool := c.lacking.any (wordIn w)

/-- The bits of MMODE, [29:27] (R112, R118, R126). -/
def modeMask : Word := 0x38000000

/-- MMODE in its place. -/
def modeBits (m : Nat) : Word := BitVec.ofNat 32 (0x08000000 * m)

/-- The words of a set that are at one mode. -/
def atMode (q : Word × Word) (m : Nat) : Word × Word := (q.1 ||| modeMask, q.2 ||| modeBits m)

/-- The data transfers, bit 31 (R111). -/
def transferWords : Word × Word := (0x80000000, 0x80000000)

/-- The branch of an AUXCODE (R128). -/
def branchWords (aux : Nat) : Word × Word := (0xC003C000, BitVec.ofNat 32 (0x40000000 + 0x4000 * aux))

/-- The arithmetic/logic operation of an F bit and an AUXCODE (R118). -/
def operationWords (f aux : Nat) : Word × Word := (0xC103C000, BitVec.ofNat 32 (0x01000000 * f + 0x4000 * aux))

/-- The words that an implementation must have: every data transfer up to MAX_TRANSFER (R11 (b)) and, up to the natural
mode, every branch, AUXCODE 0001 to 1100 (R11 (a), R134). DESIGN CHOICE (log 43): that (a) and (b) bind each of these
words, and that (a) does not bind data transfers. -/
def Config.requiredWords (c : Config) : List (Word × Word) :=
  (List.range (c.maxTransfer.code + 1)).map (atMode transferWords)
    ++ (List.range (c.naturalMode.code + 1)).flatMap fun m =>
      [1, 2, 3, 4, 5, 6, 7, 8, 9, 10, 11, 12].map fun aux => atMode (branchWords aux) m

/-- The arithmetic/logic operations that have all modes up to the natural one or none of them (R11 (a)): the integer
operations but MUL, MAD and MSU (AUXCODE 0010, 1110, 1111), whose double-width result an implementation may lack
(R333); and FF2I and FI2F (F = 1, AUXCODE 1010 and 1011). -/
def modalOperations : List (Word × Word) :=
  [0, 1, 3, 4, 5, 6, 7, 8, 9, 10, 11, 12].map (operationWords 0) ++ [10, 11].map (operationWords 1)

/-- Whether two sets of words may share a word: no bit that both fix differs. -/
def wordsMeet (p q : Word × Word) : Bool := (p.2 ^^^ q.2) &&& p.1 &&& q.1 == 0

/-- Whether every word of `q` is a word of `p`. -/
def wordsCover (p q : Word × Word) : Bool := (p.1 &&& q.1 == p.1) && (q.2 &&& p.1 == p.2)

/-- The words that both sets have, taken to mode `m`. -/
def sharedAt (p q : Word × Word) (m : Nat) : Word × Word :=
  ((p.1 ||| q.1 ||| modeMask), ((p.2 ||| q.2) &&& ~~~modeMask) ||| modeBits m)

/-- Regularity (R11 (a), (b)) beside the free choice of the arithmetic/logic instructions (R5): no required word is left
out, and where words of an operation are left out at one mode up to the natural one, an entry leaves the same words
out at each of these modes. DESIGN CHOICE (log 43). An access that its file is too small for is no matter of this list
(D39, log 10). -/
def Config.regular (c : Config) : Bool :=
  (c.requiredWords.all fun q => c.lacking.all fun p => !wordsMeet p q)
    && modalOperations.all fun q => (List.range (c.naturalMode.code + 1)).all fun m => c.lacking.all fun p =>
      !wordsMeet p (atMode q m)
        || (List.range (c.naturalMode.code + 1)).all fun n => c.lacking.any fun r => wordsCover r (sharedAt p q n)

/-- The parameters R5, R10 and R11 allow. DESIGN CHOICE (log 43): MAX_TRANSFER may be below the natural mode, because
R11 (b) bounds the transfer widths and (a) is read as speaking of the arithmetic/logic and branch instructions. -/
def Config.legal (c : Config) : Bool := c.inRange && c.regular

/-- ROUNDING_OF_UNASSIGNED (U8): the mode an FP instruction uses under an unassigned FP ROUNDING MODE code. A free
value: it has no body (log 15). -/
opaque Config.roundingOfUnassigned : BitVec 4 → RoundingMode

/-- What a register holds after a system reset (R472, U16: any value): the reset's number, the file (0 DSP, 1 FPR,
2 and above the GPR banks) and the register's number. A free value: it has no body (log 3). -/
opaque Config.registerAfterReset : Nat → Nat → Nat → RegBits

/-- The GPR width code IMP reports for a width outside Table 1 (N11). A free value: it has no body (log 7). -/
opaque Config.gprWidthCode : Nat → BitVec 3

end Sys2Proof
end

