-- ==== Sys2Proof/Syntax.lean ====
section
/-! DEFINITION. The instructions: one constructor per row of `spec/opcode_table.json`, in its order
(`spec/30_encoding.md` R112 to R128). Register specifiers are numbers (6 bits in the word, `WellFormed`), immediates
and offsets the bits of their fields. Bits that an instruction ignores (R133) are no operands. -/
namespace Sys2Proof

/-- An instruction. `m` is the machine mode; `d`, `r`, `t`, `b`, `x`, `l`, `g` are the DESTINATION, SOURCE, SOURCE2,
BASE, INDEX, LOCATION and ARGUMENT specifiers; `u`, `a`, `p` the U, A and P bits. -/
inductive Instr where
  -- Loads (R174), by addressing form (R171)
  | loadDisp (m : MMode) (d b : Nat) (off : BitVec 12)
  | loadReg (m : MMode) (d x : Nat)
  | loadRegPostInc (m : MMode) (d x : Nat)
  | loadRegPostDec (m : MMode) (d x : Nat)
  | loadRegPreInc (m : MMode) (d x : Nat)
  | loadRegPreDec (m : MMode) (d x : Nat)
  | loadIdx (m : MMode) (d b x : Nat)
  | loadIdxPostInc (m : MMode) (d b x : Nat)
  | loadIdxPostDec (m : MMode) (d b x : Nat)
  | loadIdxPreInc (m : MMode) (d b x : Nat)
  | loadIdxPreDec (m : MMode) (d b x : Nat)
  -- Stores (R175)
  | storeDisp (m : MMode) (d b : Nat) (off : BitVec 12)
  | storeReg (m : MMode) (d x : Nat)
  | storeRegPostInc (m : MMode) (d x : Nat)
  | storeRegPostDec (m : MMode) (d x : Nat)
  | storeRegPreInc (m : MMode) (d x : Nat)
  | storeRegPreDec (m : MMode) (d x : Nat)
  | storeIdx (m : MMode) (d b x : Nat)
  | storeIdxPostInc (m : MMode) (d b x : Nat)
  | storeIdxPostDec (m : MMode) (d b x : Nat)
  | storeIdxPreInc (m : MMode) (d b x : Nat)
  | storeIdxPreDec (m : MMode) (d b x : Nat)
  -- Load-locked (R176)
  | loadLockedDisp (m : MMode) (d b : Nat) (off : BitVec 12)
  | loadLockedReg (m : MMode) (d x : Nat)
  | loadLockedRegPostInc (m : MMode) (d x : Nat)
  | loadLockedRegPostDec (m : MMode) (d x : Nat)
  | loadLockedRegPreInc (m : MMode) (d x : Nat)
  | loadLockedRegPreDec (m : MMode) (d x : Nat)
  | loadLockedIdx (m : MMode) (d b x : Nat)
  | loadLockedIdxPostInc (m : MMode) (d b x : Nat)
  | loadLockedIdxPostDec (m : MMode) (d b x : Nat)
  | loadLockedIdxPreInc (m : MMode) (d b x : Nat)
  | loadLockedIdxPreDec (m : MMode) (d b x : Nat)
  -- Store-conditional (R177)
  | storeCondDisp (m : MMode) (d b : Nat) (off : BitVec 12)
  | storeCondReg (m : MMode) (d x : Nat)
  | storeCondRegPostInc (m : MMode) (d x : Nat)
  | storeCondRegPostDec (m : MMode) (d x : Nat)
  | storeCondRegPreInc (m : MMode) (d x : Nat)
  | storeCondRegPreDec (m : MMode) (d x : Nat)
  | storeCondIdx (m : MMode) (d b x : Nat)
  | storeCondIdxPostInc (m : MMode) (d b x : Nat)
  | storeCondIdxPostDec (m : MMode) (d b x : Nat)
  | storeCondIdxPreInc (m : MMode) (d b x : Nat)
  | storeCondIdxPreDec (m : MMode) (d b x : Nat)
  -- Inter-register transfers (R180 to R186)
  | movRegReg (m : MMode) (d x : Nat)
  | movRegSpc (m : MMode) (d x : Nat)
  | movSpcReg (m : MMode) (d x : Nat)
  | movRegDsp (m : MMode) (d x : Nat)
  | movDspReg (m : MMode) (d x : Nat)
  | movRegFpr (m : MMode) (d x : Nat)
  | movFprReg (m : MMode) (d x : Nat)
  -- Load immediate (R188)
  | loadImm (m : MMode) (u : Bool) (d : Nat) (imm : BitVec 18)
  -- Integer arithmetic (R200 to R215)
  | addReg (m : MMode) (u : Bool) (d r : Nat)
  | addImm (m : MMode) (u : Bool) (d : Nat) (imm : BitVec 14)
  | subReg (m : MMode) (u : Bool) (d r : Nat)
  | subImm (m : MMode) (u : Bool) (d : Nat) (imm : BitVec 14)
  | mulReg (m : MMode) (u : Bool) (d r : Nat)
  | mulImm (m : MMode) (u : Bool) (d : Nat) (imm : BitVec 14)
  | divReg (m : MMode) (u : Bool) (d r : Nat)
  | divImm (m : MMode) (u : Bool) (d : Nat) (imm : BitVec 14)
  -- Shifts (R230 to R235)
  | slReg (m : MMode) (u : Bool) (d r : Nat)
  | slImm (m : MMode) (u : Bool) (d : Nat) (imm : BitVec 14)
  | srReg (m : MMode) (u : Bool) (d r : Nat)
  | srImm (m : MMode) (u : Bool) (d : Nat) (imm : BitVec 14)
  -- Bitwise logic (R250 to R256)
  | andReg (m : MMode) (u : Bool) (d r : Nat)
  | andImm (m : MMode) (u : Bool) (d : Nat) (imm : BitVec 14)
  | nandReg (m : MMode) (u : Bool) (d r : Nat)
  | nandImm (m : MMode) (u : Bool) (d : Nat) (imm : BitVec 14)
  | orReg (m : MMode) (u : Bool) (d r : Nat)
  | orImm (m : MMode) (u : Bool) (d : Nat) (imm : BitVec 14)
  | xorReg (m : MMode) (u : Bool) (d r : Nat)
  | xorImm (m : MMode) (u : Bool) (d : Nat) (imm : BitVec 14)
  -- Rotates (R236, R237)
  | rlReg (m : MMode) (d r : Nat)
  | rlImm (m : MMode) (d : Nat) (imm : BitVec 14)
  | rrReg (m : MMode) (d r : Nat)
  | rrImm (m : MMode) (d : Nat) (imm : BitVec 14)
  -- Bit instructions (R260 to R267)
  | sbReg (m : MMode) (d r : Nat)
  | sbImm (m : MMode) (d : Nat) (imm : BitVec 14)
  | rbReg (m : MMode) (d r : Nat)
  | rbImm (m : MMode) (d : Nat) (imm : BitVec 14)
  | tbReg (m : MMode) (d r : Nat)
  | tbImm (m : MMode) (d : Nat) (imm : BitVec 14)
  | rvbReg (m : MMode) (d r : Nat)
  | rvbImm (m : MMode) (d : Nat) (imm : BitVec 14)
  -- Fused integer (R330 to R336)
  | madReg (m : MMode) (u : Bool) (d r t : Nat)
  | madImm (m : MMode) (u : Bool) (d r : Nat) (imm : BitVec 8)
  | msuReg (m : MMode) (u : Bool) (d r t : Nat)
  | msuImm (m : MMode) (u : Bool) (d r : Nat) (imm : BitVec 8)
  -- Floating point, two operands (R300 to R305)
  | fadd (d r : Nat)
  | fsub (d r : Nat)
  | fmul (d r : Nat)
  | fdiv (d r : Nat)
  | frem (d r : Nat)
  | fcmp (d r : Nat)
  -- Floating point, one operand (R306 to R309)
  | fsqr (d : Nat)
  | fabs (d : Nat)
  | fneg (d : Nat)
  | frnd (d : Nat)
  -- Integer and FP conversions (R310, R311)
  | ff2i (m : MMode) (u : Bool) (d : Nat)
  | fi2f (m : MMode) (u : Bool) (d : Nat)
  -- Format conversions (R316, R319), one row per format
  | fextH (d : Nat)
  | fextW (d : Nat)
  | fextD (d : Nat)
  | fextQ (d : Nat)
  | fext1 (d : Nat)
  | fsqzH (d : Nat)
  | fsqzW (d : Nat)
  | fsqzD (d : Nat)
  | fsqzQ (d : Nat)
  | fsqz1 (d : Nat)
  -- Fused FP (R337, R338)
  | fmad (d r t : Nat)
  | fmsu (d r t : Nat)
  -- Jumps (R360)
  | jmpReg (a p : Bool) (l : Nat)
  | jmpOff (a p : Bool) (off : BitVec 20)
  -- Branches (R361 to R372)
  | bzReg (m : MMode) (a p : Bool) (g l : Nat)
  | bzOff (m : MMode) (a p : Bool) (g : Nat) (off : BitVec 14)
  | bnzReg (m : MMode) (a p : Bool) (g l : Nat)
  | bnzOff (m : MMode) (a p : Bool) (g : Nat) (off : BitVec 14)
  | bmReg (m : MMode) (a p : Bool) (g l : Nat)
  | bmOff (m : MMode) (a p : Bool) (g : Nat) (off : BitVec 14)
  | bmzReg (m : MMode) (a p : Bool) (g l : Nat)
  | bmzOff (m : MMode) (a p : Bool) (g : Nat) (off : BitVec 14)
  | bnmReg (m : MMode) (a p : Bool) (g l : Nat)
  | bnmOff (m : MMode) (a p : Bool) (g : Nat) (off : BitVec 14)
  | bnmoReg (m : MMode) (a p : Bool) (g l : Nat)
  | bnmoOff (m : MMode) (a p : Bool) (g : Nat) (off : BitVec 14)
  | blReg (m : MMode) (a p : Bool) (g l : Nat)
  | blOff (m : MMode) (a p : Bool) (g : Nat) (off : BitVec 14)
  | blzReg (m : MMode) (a p : Bool) (g l : Nat)
  | blzOff (m : MMode) (a p : Bool) (g : Nat) (off : BitVec 14)
  | bnlReg (m : MMode) (a p : Bool) (g l : Nat)
  | bnlOff (m : MMode) (a p : Bool) (g : Nat) (off : BitVec 14)
  | bnloReg (m : MMode) (a p : Bool) (g l : Nat)
  | bnloOff (m : MMode) (a p : Bool) (g : Nat) (off : BitVec 14)
  | boReg (m : MMode) (a p : Bool) (g l : Nat)
  | boOff (m : MMode) (a p : Bool) (g : Nat) (off : BitVec 14)
  | bnoReg (m : MMode) (a p : Bool) (g l : Nat)
  | bnoOff (m : MMode) (a p : Bool) (g : Nat) (off : BitVec 14)
  -- Returns (R375 to R379)
  | ret (p : Bool)
  | reti (p : Bool)
  | rete (p : Bool)
  | retn (p : Bool)
  -- Pause (R382)
  | waitReg (l : Nat)
  | waitImm (n : BitVec 20)
deriving DecidableEq, Repr

end Sys2Proof
end

