-- ==== Sys2Proof/WellFormed.lean ====
section
/-! DEFINITION. Which instructions a 32-bit word can hold: every register specifier fits its 6-bit field
(`spec/10_state.md` R20, `spec/30_encoding.md` R112, R118, R126). -/
namespace Sys2Proof

/-- A register specifier fits its 6-bit field (R20). -/
def specifierOk (n : Nat) : Bool := decide (n < 64)

/-- The instruction's operands fit their fields. -/
def Instr.wellFormed : Instr → Bool
  | .loadDisp _ d b _ => specifierOk d && specifierOk b
  | .loadReg _ d x => specifierOk d && specifierOk x
  | .loadRegPostInc _ d x => specifierOk d && specifierOk x
  | .loadRegPostDec _ d x => specifierOk d && specifierOk x
  | .loadRegPreInc _ d x => specifierOk d && specifierOk x
  | .loadRegPreDec _ d x => specifierOk d && specifierOk x
  | .loadIdx _ d b x => specifierOk d && specifierOk b && specifierOk x
  | .loadIdxPostInc _ d b x => specifierOk d && specifierOk b && specifierOk x
  | .loadIdxPostDec _ d b x => specifierOk d && specifierOk b && specifierOk x
  | .loadIdxPreInc _ d b x => specifierOk d && specifierOk b && specifierOk x
  | .loadIdxPreDec _ d b x => specifierOk d && specifierOk b && specifierOk x
  | .storeDisp _ d b _ => specifierOk d && specifierOk b
  | .storeReg _ d x => specifierOk d && specifierOk x
  | .storeRegPostInc _ d x => specifierOk d && specifierOk x
  | .storeRegPostDec _ d x => specifierOk d && specifierOk x
  | .storeRegPreInc _ d x => specifierOk d && specifierOk x
  | .storeRegPreDec _ d x => specifierOk d && specifierOk x
  | .storeIdx _ d b x => specifierOk d && specifierOk b && specifierOk x
  | .storeIdxPostInc _ d b x => specifierOk d && specifierOk b && specifierOk x
  | .storeIdxPostDec _ d b x => specifierOk d && specifierOk b && specifierOk x
  | .storeIdxPreInc _ d b x => specifierOk d && specifierOk b && specifierOk x
  | .storeIdxPreDec _ d b x => specifierOk d && specifierOk b && specifierOk x
  | .loadLockedDisp _ d b _ => specifierOk d && specifierOk b
  | .loadLockedReg _ d x => specifierOk d && specifierOk x
  | .loadLockedRegPostInc _ d x => specifierOk d && specifierOk x
  | .loadLockedRegPostDec _ d x => specifierOk d && specifierOk x
  | .loadLockedRegPreInc _ d x => specifierOk d && specifierOk x
  | .loadLockedRegPreDec _ d x => specifierOk d && specifierOk x
  | .loadLockedIdx _ d b x => specifierOk d && specifierOk b && specifierOk x
  | .loadLockedIdxPostInc _ d b x => specifierOk d && specifierOk b && specifierOk x
  | .loadLockedIdxPostDec _ d b x => specifierOk d && specifierOk b && specifierOk x
  | .loadLockedIdxPreInc _ d b x => specifierOk d && specifierOk b && specifierOk x
  | .loadLockedIdxPreDec _ d b x => specifierOk d && specifierOk b && specifierOk x
  | .storeCondDisp _ d b _ => specifierOk d && specifierOk b
  | .storeCondReg _ d x => specifierOk d && specifierOk x
  | .storeCondRegPostInc _ d x => specifierOk d && specifierOk x
  | .storeCondRegPostDec _ d x => specifierOk d && specifierOk x
  | .storeCondRegPreInc _ d x => specifierOk d && specifierOk x
  | .storeCondRegPreDec _ d x => specifierOk d && specifierOk x
  | .storeCondIdx _ d b x => specifierOk d && specifierOk b && specifierOk x
  | .storeCondIdxPostInc _ d b x => specifierOk d && specifierOk b && specifierOk x
  | .storeCondIdxPostDec _ d b x => specifierOk d && specifierOk b && specifierOk x
  | .storeCondIdxPreInc _ d b x => specifierOk d && specifierOk b && specifierOk x
  | .storeCondIdxPreDec _ d b x => specifierOk d && specifierOk b && specifierOk x
  | .movRegReg _ d x => specifierOk d && specifierOk x
  | .movRegSpc _ d x => specifierOk d && specifierOk x
  | .movSpcReg _ d x => specifierOk d && specifierOk x
  | .movRegDsp _ d x => specifierOk d && specifierOk x
  | .movDspReg _ d x => specifierOk d && specifierOk x
  | .movRegFpr _ d x => specifierOk d && specifierOk x
  | .movFprReg _ d x => specifierOk d && specifierOk x
  | .loadImm _ _ d _ => specifierOk d
  | .addReg _ _ d r => specifierOk d && specifierOk r
  | .addImm _ _ d _ => specifierOk d
  | .subReg _ _ d r => specifierOk d && specifierOk r
  | .subImm _ _ d _ => specifierOk d
  | .mulReg _ _ d r => specifierOk d && specifierOk r
  | .mulImm _ _ d _ => specifierOk d
  | .divReg _ _ d r => specifierOk d && specifierOk r
  | .divImm _ _ d _ => specifierOk d
  | .slReg _ _ d r => specifierOk d && specifierOk r
  | .slImm _ _ d _ => specifierOk d
  | .srReg _ _ d r => specifierOk d && specifierOk r
  | .srImm _ _ d _ => specifierOk d
  | .andReg _ _ d r => specifierOk d && specifierOk r
  | .andImm _ _ d _ => specifierOk d
  | .nandReg _ _ d r => specifierOk d && specifierOk r
  | .nandImm _ _ d _ => specifierOk d
  | .orReg _ _ d r => specifierOk d && specifierOk r
  | .orImm _ _ d _ => specifierOk d
  | .xorReg _ _ d r => specifierOk d && specifierOk r
  | .xorImm _ _ d _ => specifierOk d
  | .rlReg _ d r => specifierOk d && specifierOk r
  | .rlImm _ d _ => specifierOk d
  | .rrReg _ d r => specifierOk d && specifierOk r
  | .rrImm _ d _ => specifierOk d
  | .sbReg _ d r => specifierOk d && specifierOk r
  | .sbImm _ d _ => specifierOk d
  | .rbReg _ d r => specifierOk d && specifierOk r
  | .rbImm _ d _ => specifierOk d
  | .tbReg _ d r => specifierOk d && specifierOk r
  | .tbImm _ d _ => specifierOk d
  | .rvbReg _ d r => specifierOk d && specifierOk r
  | .rvbImm _ d _ => specifierOk d
  | .madReg _ _ d r t => specifierOk d && specifierOk r && specifierOk t
  | .madImm _ _ d r _ => specifierOk d && specifierOk r
  | .msuReg _ _ d r t => specifierOk d && specifierOk r && specifierOk t
  | .msuImm _ _ d r _ => specifierOk d && specifierOk r
  | .fadd d r => specifierOk d && specifierOk r
  | .fsub d r => specifierOk d && specifierOk r
  | .fmul d r => specifierOk d && specifierOk r
  | .fdiv d r => specifierOk d && specifierOk r
  | .frem d r => specifierOk d && specifierOk r
  | .fcmp d r => specifierOk d && specifierOk r
  | .fsqr d => specifierOk d
  | .fabs d => specifierOk d
  | .fneg d => specifierOk d
  | .frnd d => specifierOk d
  | .ff2i _ _ d => specifierOk d
  | .fi2f _ _ d => specifierOk d
  | .fextH d => specifierOk d
  | .fextW d => specifierOk d
  | .fextD d => specifierOk d
  | .fextQ d => specifierOk d
  | .fext1 d => specifierOk d
  | .fsqzH d => specifierOk d
  | .fsqzW d => specifierOk d
  | .fsqzD d => specifierOk d
  | .fsqzQ d => specifierOk d
  | .fsqz1 d => specifierOk d
  | .fmad d r t => specifierOk d && specifierOk r && specifierOk t
  | .fmsu d r t => specifierOk d && specifierOk r && specifierOk t
  | .jmpReg _ _ l => specifierOk l
  | .jmpOff _ _ _ => true
  | .bzReg _ _ _ g l => specifierOk g && specifierOk l
  | .bzOff _ _ _ g _ => specifierOk g
  | .bnzReg _ _ _ g l => specifierOk g && specifierOk l
  | .bnzOff _ _ _ g _ => specifierOk g
  | .bmReg _ _ _ g l => specifierOk g && specifierOk l
  | .bmOff _ _ _ g _ => specifierOk g
  | .bmzReg _ _ _ g l => specifierOk g && specifierOk l
  | .bmzOff _ _ _ g _ => specifierOk g
  | .bnmReg _ _ _ g l => specifierOk g && specifierOk l
  | .bnmOff _ _ _ g _ => specifierOk g
  | .bnmoReg _ _ _ g l => specifierOk g && specifierOk l
  | .bnmoOff _ _ _ g _ => specifierOk g
  | .blReg _ _ _ g l => specifierOk g && specifierOk l
  | .blOff _ _ _ g _ => specifierOk g
  | .blzReg _ _ _ g l => specifierOk g && specifierOk l
  | .blzOff _ _ _ g _ => specifierOk g
  | .bnlReg _ _ _ g l => specifierOk g && specifierOk l
  | .bnlOff _ _ _ g _ => specifierOk g
  | .bnloReg _ _ _ g l => specifierOk g && specifierOk l
  | .bnloOff _ _ _ g _ => specifierOk g
  | .boReg _ _ _ g l => specifierOk g && specifierOk l
  | .boOff _ _ _ g _ => specifierOk g
  | .bnoReg _ _ _ g l => specifierOk g && specifierOk l
  | .bnoOff _ _ _ g _ => specifierOk g
  | .ret _ => true
  | .reti _ => true
  | .rete _ => true
  | .retn _ => true
  | .waitReg l => specifierOk l
  | .waitImm _ => true

end Sys2Proof
end

