-- ==== Sys2Proof/Decode.lean ====
section
/-! DEFINITION. The decoder, total on every 32-bit word, and the encoder (`spec/30_encoding.md` R110 to R135). -/
namespace Sys2Proof

/-- Why a word is no instruction. Each makes the machine raise INVALID INSTRUCTION (R130, R413); none stops it. -/
inductive DecodeError where
  /-- A memory transfer with O = 0 and an AUXCODE Table 8 does not assign (R131). -/
  | unassignedMemoryForm
  /-- T = 1 with L = 0 (R132). -/
  | transferNotLoad
  /-- An inter-register transfer with U = 1 (R132). -/
  | interRegisterUnsigned
  /-- An inter-register AUXCODE 0101 to 1101, left for register files no implementation of this model has (R135). -/
  | unassignedRegisterFile
  /-- F = 0 with AUXCODE 1101 (R131). -/
  | unassignedOperation
  /-- F = 1 with I = 1 (R132). -/
  | floatImmediate
  /-- F = 1 with an MMODE or U bit the instruction fixes at 0 (R132). -/
  | floatModeOrUnsigned
  /-- FEXT or FSQZ with U = 1 or an MMODE that names no FP format (R132). -/
  | floatFormat
  /-- A control instruction with AUXCODE 1111 (R131). -/
  | unassignedControl
  /-- JMP with MMODE not 000 (R132). -/
  | jumpMode
  /-- A return with O = 1, A = 1 or an MMODE above 011 (R132). -/
  | returnForm
  /-- WAIT with MMODE not 000, A = 1 or P = 1 (R132). -/
  | waitForm
deriving DecidableEq, Repr

/-- The `len` bits of a word from bit `lo` up, as a number (R13). -/
def field (w : Word) (lo len : Nat) : Nat := w.toNat / 2 ^ lo % 2 ^ len

/-- One bit of a word (R13). -/
def flag (w : Word) (i : Nat) : Bool := field w i 1 == 1

/-- MMODE, bits 29:27 (R112, R118, R126). -/
def modeField (w : Word) : MMode := MMode.ofCode (field w 27 3)

/-- DESTINATION or ARGUMENT, bits 23:18. -/
def destField (w : Word) : Nat := field w 18 6

/-- BASE, SOURCE or LOCATION, bits 11:6. -/
def baseField (w : Word) : Nat := field w 6 6

/-- INDEX or SOURCE2, bits 5:0. -/
def indexField (w : Word) : Nat := field w 0 6

/-- OFFSET12 = bits 17:12 and 5:0 (R113). -/
def offset12 (w : Word) : BitVec 12 := BitVec.ofNat 12 (field w 12 6 * 64 + field w 0 6)

/-- IMMEDIATE18, bits 17:0 (R117). -/
def immediate18 (w : Word) : BitVec 18 := BitVec.ofNat 18 (field w 0 18)

/-- IMMEDIATE14 or OFFSET14, bits 13:0 (R118, R127). -/
def immediate14 (w : Word) : BitVec 14 := BitVec.ofNat 14 (field w 0 14)

/-- IMMEDIATE8 = bits 13:12 and 5:0 (R119). -/
def immediate8 (w : Word) : BitVec 8 := BitVec.ofNat 8 (field w 12 2 * 64 + field w 0 6)

/-- OFFSET20 = bits 23:18 and 13:0 (R127). -/
def offset20 (w : Word) : BitVec 20 := BitVec.ofNat 20 (field w 18 6 * 16384 + field w 0 14)

/-- The memory transfers of one kind with O = 0, by AUXCODE (R115). -/
def decodeLoad (w : Word) : Except DecodeError Instr :=
  let m := modeField w
  let d := destField w
  let b := baseField w
  let x := indexField w
  match field w 14 4 with
  | 0 => .ok (.loadReg m d x)
  | 1 => .ok (.loadRegPostInc m d x)
  | 2 => .ok (.loadRegPostDec m d x)
  | 5 => .ok (.loadRegPreInc m d x)
  | 6 => .ok (.loadRegPreDec m d x)
  | 8 => .ok (.loadIdx m d b x)
  | 9 => .ok (.loadIdxPostInc m d b x)
  | 10 => .ok (.loadIdxPostDec m d b x)
  | 13 => .ok (.loadIdxPreInc m d b x)
  | 14 => .ok (.loadIdxPreDec m d b x)
  | _ => .error .unassignedMemoryForm

/-- The memory transfers of one kind with O = 0, by AUXCODE (R115). -/
def decodeStore (w : Word) : Except DecodeError Instr :=
  let m := modeField w
  let d := destField w
  let b := baseField w
  let x := indexField w
  match field w 14 4 with
  | 0 => .ok (.storeReg m d x)
  | 1 => .ok (.storeRegPostInc m d x)
  | 2 => .ok (.storeRegPostDec m d x)
  | 5 => .ok (.storeRegPreInc m d x)
  | 6 => .ok (.storeRegPreDec m d x)
  | 8 => .ok (.storeIdx m d b x)
  | 9 => .ok (.storeIdxPostInc m d b x)
  | 10 => .ok (.storeIdxPostDec m d b x)
  | 13 => .ok (.storeIdxPreInc m d b x)
  | 14 => .ok (.storeIdxPreDec m d b x)
  | _ => .error .unassignedMemoryForm

/-- The memory transfers of one kind with O = 0, by AUXCODE (R115). -/
def decodeLoadLocked (w : Word) : Except DecodeError Instr :=
  let m := modeField w
  let d := destField w
  let b := baseField w
  let x := indexField w
  match field w 14 4 with
  | 0 => .ok (.loadLockedReg m d x)
  | 1 => .ok (.loadLockedRegPostInc m d x)
  | 2 => .ok (.loadLockedRegPostDec m d x)
  | 5 => .ok (.loadLockedRegPreInc m d x)
  | 6 => .ok (.loadLockedRegPreDec m d x)
  | 8 => .ok (.loadLockedIdx m d b x)
  | 9 => .ok (.loadLockedIdxPostInc m d b x)
  | 10 => .ok (.loadLockedIdxPostDec m d b x)
  | 13 => .ok (.loadLockedIdxPreInc m d b x)
  | 14 => .ok (.loadLockedIdxPreDec m d b x)
  | _ => .error .unassignedMemoryForm

/-- The memory transfers of one kind with O = 0, by AUXCODE (R115). -/
def decodeStoreCond (w : Word) : Except DecodeError Instr :=
  let m := modeField w
  let d := destField w
  let b := baseField w
  let x := indexField w
  match field w 14 4 with
  | 0 => .ok (.storeCondReg m d x)
  | 1 => .ok (.storeCondRegPostInc m d x)
  | 2 => .ok (.storeCondRegPostDec m d x)
  | 5 => .ok (.storeCondRegPreInc m d x)
  | 6 => .ok (.storeCondRegPreDec m d x)
  | 8 => .ok (.storeCondIdx m d b x)
  | 9 => .ok (.storeCondIdxPostInc m d b x)
  | 10 => .ok (.storeCondIdxPostDec m d b x)
  | 13 => .ok (.storeCondIdxPreInc m d b x)
  | 14 => .ok (.storeCondIdxPreDec m d b x)
  | _ => .error .unassignedMemoryForm

/-- The memory transfers, T = 0 (R114): L and U select the kind, O the displacement form. -/
def decodeMemory (w : Word) : Except DecodeError Instr :=
  let m := modeField w
  let d := destField w
  let b := baseField w
  let off := offset12 w
  match flag w 30, flag w 25, flag w 26 with
  | true, false, true => .ok (.loadDisp m d b off)
  | true, false, false => decodeLoad w
  | false, false, true => .ok (.storeDisp m d b off)
  | false, false, false => decodeStore w
  | true, true, true => .ok (.loadLockedDisp m d b off)
  | true, true, false => decodeLoadLocked w
  | false, true, true => .ok (.storeCondDisp m d b off)
  | false, true, false => decodeStoreCond w

/-- The inter-register transfers, T = 1 and O = 0, by AUXCODE (R116). -/
def decodeInterRegister (w : Word) : Except DecodeError Instr :=
  let m := modeField w
  let d := destField w
  let x := indexField w
  match field w 14 4 with
  | 0 => .ok (.movRegReg m d x)
  | 1 => .ok (.movRegSpc m d x)
  | 2 => .ok (.movSpcReg m d x)
  | 3 => .ok (.movRegDsp m d x)
  | 4 => .ok (.movDspReg m d x)
  | 14 => .ok (.movRegFpr m d x)
  | 15 => .ok (.movFprReg m d x)
  | _ => .error .unassignedRegisterFile

/-- The data transfer group, D = 1 (R114, R129). -/
def decodeTransfer (w : Word) : Except DecodeError Instr :=
  if flag w 24 = false then decodeMemory w
  else if flag w 30 = false then .error .transferNotLoad
  else if flag w 26 = true then .ok (.loadImm (modeField w) (flag w 25) (destField w) (immediate18 w))
  else if flag w 25 = true then .error .interRegisterUnsigned
  else decodeInterRegister w

/-- The integer operations with I = 0, by AUXCODE and U (R124). -/
def decodeIntegerReg (w : Word) : Except DecodeError Instr :=
  let m := modeField w
  let u := flag w 25
  let d := destField w
  let s := baseField w
  let t := indexField w
  match field w 14 4 with
  | 0 => .ok (.addReg m u d s)
  | 1 => .ok (.subReg m u d s)
  | 2 => .ok (.mulReg m u d s)
  | 3 => .ok (.divReg m u d s)
  | 4 => .ok (.slReg m u d s)
  | 5 => .ok (.srReg m u d s)
  | 6 => .ok (if u then .rrReg m d s else .rlReg m d s)
  | 7 => .ok (.andReg m u d s)
  | 8 => .ok (.nandReg m u d s)
  | 9 => .ok (.orReg m u d s)
  | 10 => .ok (.xorReg m u d s)
  | 11 => .ok (if u then .rbReg m d s else .sbReg m d s)
  | 12 => .ok (if u then .rvbReg m d s else .tbReg m d s)
  | 14 => .ok (.madReg m u d s t)
  | 15 => .ok (.msuReg m u d s t)
  | _ => .error .unassignedOperation

/-- The integer operations with I = 1, by AUXCODE and U (R124). -/
def decodeIntegerImm (w : Word) : Except DecodeError Instr :=
  let m := modeField w
  let u := flag w 25
  let d := destField w
  let s := baseField w
  let i := immediate14 w
  match field w 14 4 with
  | 0 => .ok (.addImm m u d i)
  | 1 => .ok (.subImm m u d i)
  | 2 => .ok (.mulImm m u d i)
  | 3 => .ok (.divImm m u d i)
  | 4 => .ok (.slImm m u d i)
  | 5 => .ok (.srImm m u d i)
  | 6 => .ok (if u then .rrImm m d i else .rlImm m d i)
  | 7 => .ok (.andImm m u d i)
  | 8 => .ok (.nandImm m u d i)
  | 9 => .ok (.orImm m u d i)
  | 10 => .ok (.xorImm m u d i)
  | 11 => .ok (if u then .rbImm m d i else .sbImm m d i)
  | 12 => .ok (if u then .rvbImm m d i else .tbImm m d i)
  | 14 => .ok (.madImm m u d s (immediate8 w))
  | 15 => .ok (.msuImm m u d s (immediate8 w))
  | _ => .error .unassignedOperation

/-- A floating point operation whose MMODE and U are 0 (R123, R132). -/
def plainFloat (w : Word) (i : Instr) : Except DecodeError Instr :=
  if field w 27 3 = 0 ∧ flag w 25 = false then .ok i else .error .floatModeOrUnsigned

/-- FEXT by its format, MMODE in H, W, D, Q, 1 (R316). -/
def decodeExtend (w : Word) : Except DecodeError Instr :=
  let d := destField w
  if flag w 25 then .error .floatFormat
  else match field w 27 3 with
  | 1 => .ok (.fextH d)
  | 2 => .ok (.fextW d)
  | 3 => .ok (.fextD d)
  | 4 => .ok (.fextQ d)
  | 5 => .ok (.fext1 d)
  | _ => .error .floatFormat

/-- FSQZ by its format, MMODE in H, W, D, Q, 1 (R319). -/
def decodeSqueeze (w : Word) : Except DecodeError Instr :=
  let d := destField w
  if flag w 25 then .error .floatFormat
  else match field w 27 3 with
  | 1 => .ok (.fsqzH d)
  | 2 => .ok (.fsqzW d)
  | 3 => .ok (.fsqzD d)
  | 4 => .ok (.fsqzQ d)
  | 5 => .ok (.fsqz1 d)
  | _ => .error .floatFormat

/-- The floating point operations, F = 1, by AUXCODE (R125). -/
def decodeFloat (w : Word) : Except DecodeError Instr :=
  let d := destField w
  let s := baseField w
  let t := indexField w
  if flag w 26 then .error .floatImmediate
  else match field w 14 4 with
  | 0 => plainFloat w (.fadd d s)
  | 1 => plainFloat w (.fsub d s)
  | 2 => plainFloat w (.fmul d s)
  | 3 => plainFloat w (.fdiv d s)
  | 4 => plainFloat w (.frem d s)
  | 5 => plainFloat w (.fcmp d s)
  | 6 => plainFloat w (.fsqr d)
  | 7 => plainFloat w (.fabs d)
  | 8 => plainFloat w (.fneg d)
  | 9 => plainFloat w (.frnd d)
  | 10 => .ok (.ff2i (modeField w) (flag w 25) d)
  | 11 => .ok (.fi2f (modeField w) (flag w 25) d)
  | 12 => decodeExtend w
  | 13 => decodeSqueeze w
  | 14 => plainFloat w (.fmad d s t)
  | _ => plainFloat w (.fmsu d s t)

/-- The returns, AUXCODE 1101, by MMODE (R375). -/
def decodeReturn (w : Word) : Except DecodeError Instr :=
  let p := flag w 24
  if flag w 26 || flag w 25 then .error .returnForm
  else match field w 27 3 with
  | 0 => .ok (.ret p)
  | 1 => .ok (.reti p)
  | 2 => .ok (.rete p)
  | 3 => .ok (.retn p)
  | _ => .error .returnForm

/-- The control instructions with O = 0, by AUXCODE (R128). -/
def decodeControlReg (w : Word) : Except DecodeError Instr :=
  let m := modeField w
  let a := flag w 25
  let p := flag w 24
  let g := destField w
  let l := baseField w
  match field w 14 4 with
  | 0 => if field w 27 3 = 0 then .ok (.jmpReg a p l) else .error .jumpMode
  | 1 => .ok (.bzReg m a p g l)
  | 2 => .ok (.bnzReg m a p g l)
  | 3 => .ok (.bmReg m a p g l)
  | 4 => .ok (.bmzReg m a p g l)
  | 5 => .ok (.bnmReg m a p g l)
  | 6 => .ok (.bnmoReg m a p g l)
  | 7 => .ok (.blReg m a p g l)
  | 8 => .ok (.blzReg m a p g l)
  | 9 => .ok (.bnlReg m a p g l)
  | 10 => .ok (.bnloReg m a p g l)
  | 11 => .ok (.boReg m a p g l)
  | 12 => .ok (.bnoReg m a p g l)
  | 13 => decodeReturn w
  | 14 => if field w 27 3 = 0 ∧ a = false ∧ p = false then .ok (.waitReg l) else .error .waitForm
  | _ => .error .unassignedControl

/-- The control instructions with O = 1, by AUXCODE (R128). -/
def decodeControlOff (w : Word) : Except DecodeError Instr :=
  let m := modeField w
  let a := flag w 25
  let p := flag w 24
  let g := destField w
  let off := immediate14 w
  match field w 14 4 with
  | 0 => if field w 27 3 = 0 then .ok (.jmpOff a p (offset20 w)) else .error .jumpMode
  | 1 => .ok (.bzOff m a p g off)
  | 2 => .ok (.bnzOff m a p g off)
  | 3 => .ok (.bmOff m a p g off)
  | 4 => .ok (.bmzOff m a p g off)
  | 5 => .ok (.bnmOff m a p g off)
  | 6 => .ok (.bnmoOff m a p g off)
  | 7 => .ok (.blOff m a p g off)
  | 8 => .ok (.blzOff m a p g off)
  | 9 => .ok (.bnlOff m a p g off)
  | 10 => .ok (.bnloOff m a p g off)
  | 11 => .ok (.boOff m a p g off)
  | 12 => .ok (.bnoOff m a p g off)
  | 13 => decodeReturn w
  | 14 => if field w 27 3 = 0 ∧ a = false ∧ p = false then .ok (.waitImm (offset20 w)) else .error .waitForm
  | _ => .error .unassignedControl

/-- The decoder (R129): total, and every word that is no instruction is rejected by name. -/
def decode (w : Word) : Except DecodeError Instr :=
  if flag w 31 then decodeTransfer w
  else if flag w 30 then (if flag w 26 then decodeControlOff w else decodeControlReg w)
  else if flag w 24 then decodeFloat w
  else if flag w 26 then decodeIntegerImm w
  else decodeIntegerReg w

/-- A word from its OPCODE (bits 31:24), its DESTINATION or ARGUMENT (bits 23:18) and its low 18 bits. -/
def opWord (opcode d low : Nat) : Word := BitVec.ofNat 32 (opcode * 2 ^ 24 + d * 2 ^ 18 + low)

/-- The encoder: the word of a well-formed instruction, the bits it ignores 0 (R112 to R128, R133). -/
def encode : Instr → Word
  | .loadDisp m d b off => opWord (0xC4 + 8 * m.code) d (4096 * (off.toNat / 64) + 64 * b + off.toNat % 64)
  | .loadReg m d x => opWord (0xC0 + 8 * m.code) d (x)
  | .loadRegPostInc m d x => opWord (0xC0 + 8 * m.code) d (0x4000 * 1 + x)
  | .loadRegPostDec m d x => opWord (0xC0 + 8 * m.code) d (0x4000 * 2 + x)
  | .loadRegPreInc m d x => opWord (0xC0 + 8 * m.code) d (0x4000 * 5 + x)
  | .loadRegPreDec m d x => opWord (0xC0 + 8 * m.code) d (0x4000 * 6 + x)
  | .loadIdx m d b x => opWord (0xC0 + 8 * m.code) d (0x4000 * 8 + 64 * b + x)
  | .loadIdxPostInc m d b x => opWord (0xC0 + 8 * m.code) d (0x4000 * 9 + 64 * b + x)
  | .loadIdxPostDec m d b x => opWord (0xC0 + 8 * m.code) d (0x4000 * 10 + 64 * b + x)
  | .loadIdxPreInc m d b x => opWord (0xC0 + 8 * m.code) d (0x4000 * 13 + 64 * b + x)
  | .loadIdxPreDec m d b x => opWord (0xC0 + 8 * m.code) d (0x4000 * 14 + 64 * b + x)
  | .storeDisp m d b off => opWord (0x84 + 8 * m.code) d (4096 * (off.toNat / 64) + 64 * b + off.toNat % 64)
  | .storeReg m d x => opWord (0x80 + 8 * m.code) d (x)
  | .storeRegPostInc m d x => opWord (0x80 + 8 * m.code) d (0x4000 * 1 + x)
  | .storeRegPostDec m d x => opWord (0x80 + 8 * m.code) d (0x4000 * 2 + x)
  | .storeRegPreInc m d x => opWord (0x80 + 8 * m.code) d (0x4000 * 5 + x)
  | .storeRegPreDec m d x => opWord (0x80 + 8 * m.code) d (0x4000 * 6 + x)
  | .storeIdx m d b x => opWord (0x80 + 8 * m.code) d (0x4000 * 8 + 64 * b + x)
  | .storeIdxPostInc m d b x => opWord (0x80 + 8 * m.code) d (0x4000 * 9 + 64 * b + x)
  | .storeIdxPostDec m d b x => opWord (0x80 + 8 * m.code) d (0x4000 * 10 + 64 * b + x)
  | .storeIdxPreInc m d b x => opWord (0x80 + 8 * m.code) d (0x4000 * 13 + 64 * b + x)
  | .storeIdxPreDec m d b x => opWord (0x80 + 8 * m.code) d (0x4000 * 14 + 64 * b + x)
  | .loadLockedDisp m d b off => opWord (0xC6 + 8 * m.code) d (4096 * (off.toNat / 64) + 64 * b + off.toNat % 64)
  | .loadLockedReg m d x => opWord (0xC2 + 8 * m.code) d (x)
  | .loadLockedRegPostInc m d x => opWord (0xC2 + 8 * m.code) d (0x4000 * 1 + x)
  | .loadLockedRegPostDec m d x => opWord (0xC2 + 8 * m.code) d (0x4000 * 2 + x)
  | .loadLockedRegPreInc m d x => opWord (0xC2 + 8 * m.code) d (0x4000 * 5 + x)
  | .loadLockedRegPreDec m d x => opWord (0xC2 + 8 * m.code) d (0x4000 * 6 + x)
  | .loadLockedIdx m d b x => opWord (0xC2 + 8 * m.code) d (0x4000 * 8 + 64 * b + x)
  | .loadLockedIdxPostInc m d b x => opWord (0xC2 + 8 * m.code) d (0x4000 * 9 + 64 * b + x)
  | .loadLockedIdxPostDec m d b x => opWord (0xC2 + 8 * m.code) d (0x4000 * 10 + 64 * b + x)
  | .loadLockedIdxPreInc m d b x => opWord (0xC2 + 8 * m.code) d (0x4000 * 13 + 64 * b + x)
  | .loadLockedIdxPreDec m d b x => opWord (0xC2 + 8 * m.code) d (0x4000 * 14 + 64 * b + x)
  | .storeCondDisp m d b off => opWord (0x86 + 8 * m.code) d (4096 * (off.toNat / 64) + 64 * b + off.toNat % 64)
  | .storeCondReg m d x => opWord (0x82 + 8 * m.code) d (x)
  | .storeCondRegPostInc m d x => opWord (0x82 + 8 * m.code) d (0x4000 * 1 + x)
  | .storeCondRegPostDec m d x => opWord (0x82 + 8 * m.code) d (0x4000 * 2 + x)
  | .storeCondRegPreInc m d x => opWord (0x82 + 8 * m.code) d (0x4000 * 5 + x)
  | .storeCondRegPreDec m d x => opWord (0x82 + 8 * m.code) d (0x4000 * 6 + x)
  | .storeCondIdx m d b x => opWord (0x82 + 8 * m.code) d (0x4000 * 8 + 64 * b + x)
  | .storeCondIdxPostInc m d b x => opWord (0x82 + 8 * m.code) d (0x4000 * 9 + 64 * b + x)
  | .storeCondIdxPostDec m d b x => opWord (0x82 + 8 * m.code) d (0x4000 * 10 + 64 * b + x)
  | .storeCondIdxPreInc m d b x => opWord (0x82 + 8 * m.code) d (0x4000 * 13 + 64 * b + x)
  | .storeCondIdxPreDec m d b x => opWord (0x82 + 8 * m.code) d (0x4000 * 14 + 64 * b + x)
  | .movRegReg m d x => opWord (0xC1 + 8 * m.code) d (x)
  | .movRegSpc m d x => opWord (0xC1 + 8 * m.code) d (0x4000 * 1 + x)
  | .movSpcReg m d x => opWord (0xC1 + 8 * m.code) d (0x4000 * 2 + x)
  | .movRegDsp m d x => opWord (0xC1 + 8 * m.code) d (0x4000 * 3 + x)
  | .movDspReg m d x => opWord (0xC1 + 8 * m.code) d (0x4000 * 4 + x)
  | .movRegFpr m d x => opWord (0xC1 + 8 * m.code) d (0x4000 * 14 + x)
  | .movFprReg m d x => opWord (0xC1 + 8 * m.code) d (0x4000 * 15 + x)
  | .loadImm m u d imm => opWord (0xC5 + 8 * m.code + 2 * u.toNat) d (imm.toNat)
  | .addReg m u d r => opWord (0x00 + 8 * m.code + 2 * u.toNat) d (64 * r)
  | .addImm m u d imm => opWord (0x04 + 8 * m.code + 2 * u.toNat) d (imm.toNat)
  | .subReg m u d r => opWord (0x00 + 8 * m.code + 2 * u.toNat) d (0x4000 * 1 + 64 * r)
  | .subImm m u d imm => opWord (0x04 + 8 * m.code + 2 * u.toNat) d (0x4000 * 1 + imm.toNat)
  | .mulReg m u d r => opWord (0x00 + 8 * m.code + 2 * u.toNat) d (0x4000 * 2 + 64 * r)
  | .mulImm m u d imm => opWord (0x04 + 8 * m.code + 2 * u.toNat) d (0x4000 * 2 + imm.toNat)
  | .divReg m u d r => opWord (0x00 + 8 * m.code + 2 * u.toNat) d (0x4000 * 3 + 64 * r)
  | .divImm m u d imm => opWord (0x04 + 8 * m.code + 2 * u.toNat) d (0x4000 * 3 + imm.toNat)
  | .slReg m u d r => opWord (0x00 + 8 * m.code + 2 * u.toNat) d (0x4000 * 4 + 64 * r)
  | .slImm m u d imm => opWord (0x04 + 8 * m.code + 2 * u.toNat) d (0x4000 * 4 + imm.toNat)
  | .srReg m u d r => opWord (0x00 + 8 * m.code + 2 * u.toNat) d (0x4000 * 5 + 64 * r)
  | .srImm m u d imm => opWord (0x04 + 8 * m.code + 2 * u.toNat) d (0x4000 * 5 + imm.toNat)
  | .andReg m u d r => opWord (0x00 + 8 * m.code + 2 * u.toNat) d (0x4000 * 7 + 64 * r)
  | .andImm m u d imm => opWord (0x04 + 8 * m.code + 2 * u.toNat) d (0x4000 * 7 + imm.toNat)
  | .nandReg m u d r => opWord (0x00 + 8 * m.code + 2 * u.toNat) d (0x4000 * 8 + 64 * r)
  | .nandImm m u d imm => opWord (0x04 + 8 * m.code + 2 * u.toNat) d (0x4000 * 8 + imm.toNat)
  | .orReg m u d r => opWord (0x00 + 8 * m.code + 2 * u.toNat) d (0x4000 * 9 + 64 * r)
  | .orImm m u d imm => opWord (0x04 + 8 * m.code + 2 * u.toNat) d (0x4000 * 9 + imm.toNat)
  | .xorReg m u d r => opWord (0x00 + 8 * m.code + 2 * u.toNat) d (0x4000 * 10 + 64 * r)
  | .xorImm m u d imm => opWord (0x04 + 8 * m.code + 2 * u.toNat) d (0x4000 * 10 + imm.toNat)
  | .rlReg m d r => opWord (0x00 + 8 * m.code) d (0x4000 * 6 + 64 * r)
  | .rlImm m d imm => opWord (0x04 + 8 * m.code) d (0x4000 * 6 + imm.toNat)
  | .rrReg m d r => opWord (0x02 + 8 * m.code) d (0x4000 * 6 + 64 * r)
  | .rrImm m d imm => opWord (0x06 + 8 * m.code) d (0x4000 * 6 + imm.toNat)
  | .sbReg m d r => opWord (0x00 + 8 * m.code) d (0x4000 * 11 + 64 * r)
  | .sbImm m d imm => opWord (0x04 + 8 * m.code) d (0x4000 * 11 + imm.toNat)
  | .rbReg m d r => opWord (0x02 + 8 * m.code) d (0x4000 * 11 + 64 * r)
  | .rbImm m d imm => opWord (0x06 + 8 * m.code) d (0x4000 * 11 + imm.toNat)
  | .tbReg m d r => opWord (0x00 + 8 * m.code) d (0x4000 * 12 + 64 * r)
  | .tbImm m d imm => opWord (0x04 + 8 * m.code) d (0x4000 * 12 + imm.toNat)
  | .rvbReg m d r => opWord (0x02 + 8 * m.code) d (0x4000 * 12 + 64 * r)
  | .rvbImm m d imm => opWord (0x06 + 8 * m.code) d (0x4000 * 12 + imm.toNat)
  | .madReg m u d r t => opWord (0x00 + 8 * m.code + 2 * u.toNat) d (0x4000 * 14 + 64 * r + t)
  | .madImm m u d r imm => opWord (0x04 + 8 * m.code + 2 * u.toNat) d (0x4000 * 14 + 4096 * (imm.toNat / 64) + 64 * r + imm.toNat % 64)
  | .msuReg m u d r t => opWord (0x00 + 8 * m.code + 2 * u.toNat) d (0x4000 * 15 + 64 * r + t)
  | .msuImm m u d r imm => opWord (0x04 + 8 * m.code + 2 * u.toNat) d (0x4000 * 15 + 4096 * (imm.toNat / 64) + 64 * r + imm.toNat % 64)
  | .fadd d r => opWord (0x01) d (64 * r)
  | .fsub d r => opWord (0x01) d (0x4000 * 1 + 64 * r)
  | .fmul d r => opWord (0x01) d (0x4000 * 2 + 64 * r)
  | .fdiv d r => opWord (0x01) d (0x4000 * 3 + 64 * r)
  | .frem d r => opWord (0x01) d (0x4000 * 4 + 64 * r)
  | .fcmp d r => opWord (0x01) d (0x4000 * 5 + 64 * r)
  | .fsqr d => opWord (0x01) d (0x4000 * 6)
  | .fabs d => opWord (0x01) d (0x4000 * 7)
  | .fneg d => opWord (0x01) d (0x4000 * 8)
  | .frnd d => opWord (0x01) d (0x4000 * 9)
  | .ff2i m u d => opWord (0x01 + 8 * m.code + 2 * u.toNat) d (0x4000 * 10)
  | .fi2f m u d => opWord (0x01 + 8 * m.code + 2 * u.toNat) d (0x4000 * 11)
  | .fextH d => opWord (0x09) d (0x4000 * 12)
  | .fextW d => opWord (0x11) d (0x4000 * 12)
  | .fextD d => opWord (0x19) d (0x4000 * 12)
  | .fextQ d => opWord (0x21) d (0x4000 * 12)
  | .fext1 d => opWord (0x29) d (0x4000 * 12)
  | .fsqzH d => opWord (0x09) d (0x4000 * 13)
  | .fsqzW d => opWord (0x11) d (0x4000 * 13)
  | .fsqzD d => opWord (0x19) d (0x4000 * 13)
  | .fsqzQ d => opWord (0x21) d (0x4000 * 13)
  | .fsqz1 d => opWord (0x29) d (0x4000 * 13)
  | .fmad d r t => opWord (0x01) d (0x4000 * 14 + 64 * r + t)
  | .fmsu d r t => opWord (0x01) d (0x4000 * 15 + 64 * r + t)
  | .jmpReg a p l => opWord (0x40 + 2 * a.toNat + p.toNat) 0 (64 * l)
  | .jmpOff a p off => opWord (0x44 + 2 * a.toNat + p.toNat) (off.toNat / 16384) (off.toNat % 16384)
  | .bzReg m a p g l => opWord (0x40 + 8 * m.code + 2 * a.toNat + p.toNat) g (0x4000 * 1 + 64 * l)
  | .bzOff m a p g off => opWord (0x44 + 8 * m.code + 2 * a.toNat + p.toNat) g (0x4000 * 1 + off.toNat)
  | .bnzReg m a p g l => opWord (0x40 + 8 * m.code + 2 * a.toNat + p.toNat) g (0x4000 * 2 + 64 * l)
  | .bnzOff m a p g off => opWord (0x44 + 8 * m.code + 2 * a.toNat + p.toNat) g (0x4000 * 2 + off.toNat)
  | .bmReg m a p g l => opWord (0x40 + 8 * m.code + 2 * a.toNat + p.toNat) g (0x4000 * 3 + 64 * l)
  | .bmOff m a p g off => opWord (0x44 + 8 * m.code + 2 * a.toNat + p.toNat) g (0x4000 * 3 + off.toNat)
  | .bmzReg m a p g l => opWord (0x40 + 8 * m.code + 2 * a.toNat + p.toNat) g (0x4000 * 4 + 64 * l)
  | .bmzOff m a p g off => opWord (0x44 + 8 * m.code + 2 * a.toNat + p.toNat) g (0x4000 * 4 + off.toNat)
  | .bnmReg m a p g l => opWord (0x40 + 8 * m.code + 2 * a.toNat + p.toNat) g (0x4000 * 5 + 64 * l)
  | .bnmOff m a p g off => opWord (0x44 + 8 * m.code + 2 * a.toNat + p.toNat) g (0x4000 * 5 + off.toNat)
  | .bnmoReg m a p g l => opWord (0x40 + 8 * m.code + 2 * a.toNat + p.toNat) g (0x4000 * 6 + 64 * l)
  | .bnmoOff m a p g off => opWord (0x44 + 8 * m.code + 2 * a.toNat + p.toNat) g (0x4000 * 6 + off.toNat)
  | .blReg m a p g l => opWord (0x40 + 8 * m.code + 2 * a.toNat + p.toNat) g (0x4000 * 7 + 64 * l)
  | .blOff m a p g off => opWord (0x44 + 8 * m.code + 2 * a.toNat + p.toNat) g (0x4000 * 7 + off.toNat)
  | .blzReg m a p g l => opWord (0x40 + 8 * m.code + 2 * a.toNat + p.toNat) g (0x4000 * 8 + 64 * l)
  | .blzOff m a p g off => opWord (0x44 + 8 * m.code + 2 * a.toNat + p.toNat) g (0x4000 * 8 + off.toNat)
  | .bnlReg m a p g l => opWord (0x40 + 8 * m.code + 2 * a.toNat + p.toNat) g (0x4000 * 9 + 64 * l)
  | .bnlOff m a p g off => opWord (0x44 + 8 * m.code + 2 * a.toNat + p.toNat) g (0x4000 * 9 + off.toNat)
  | .bnloReg m a p g l => opWord (0x40 + 8 * m.code + 2 * a.toNat + p.toNat) g (0x4000 * 10 + 64 * l)
  | .bnloOff m a p g off => opWord (0x44 + 8 * m.code + 2 * a.toNat + p.toNat) g (0x4000 * 10 + off.toNat)
  | .boReg m a p g l => opWord (0x40 + 8 * m.code + 2 * a.toNat + p.toNat) g (0x4000 * 11 + 64 * l)
  | .boOff m a p g off => opWord (0x44 + 8 * m.code + 2 * a.toNat + p.toNat) g (0x4000 * 11 + off.toNat)
  | .bnoReg m a p g l => opWord (0x40 + 8 * m.code + 2 * a.toNat + p.toNat) g (0x4000 * 12 + 64 * l)
  | .bnoOff m a p g off => opWord (0x44 + 8 * m.code + 2 * a.toNat + p.toNat) g (0x4000 * 12 + off.toNat)
  | .ret p => opWord (0x40 + p.toNat) 0 (0x4000 * 13)
  | .reti p => opWord (0x48 + p.toNat) 0 (0x4000 * 13)
  | .rete p => opWord (0x50 + p.toNat) 0 (0x4000 * 13)
  | .retn p => opWord (0x58 + p.toNat) 0 (0x4000 * 13)
  | .waitReg l => opWord (0x40) 0 (0x4000 * 14 + 64 * l)
  | .waitImm n => opWord (0x44) (n.toNat / 16384) (0x4000 * 14 + n.toNat % 16384)

/-- The instruction the decoder reads from the bits of an opcode-table row; bits at and above `nbits` are 0. -/
def decodeTableWord (nbits w : Nat) : Option Instr :=
  match decode (BitVec.ofNat 32 (w % 2 ^ nbits)) with
  | .ok i => some i
  | .error _ => none

end Sys2Proof
end

