-- ==== Sys2Proof/Machine/State.lean ====
section
/-! DEFINITION. The machine's state as plain data: every register and every hidden item of `spec/10_state.md` (R20 to
R64), the exceptions' names (`spec/60_exceptions.md` R404), the environment's events, and the state after reset
(`spec/70_reset_and_hazards.md` R471). -/
namespace Sys2Proof.Machine

/-- Why the machine stops with a fault. -/
inductive Fault where
  /-- ERROR_STATE: the undefined state of execution after an impotent I SYSTEM BUS ERROR, left only by a reset (R419,
  U15). Raised by `step` alone. Safe: the hardware may go on in any way, and nothing is claimed of it. -/
  | undefinedExecution
deriving DecidableEq, Repr

/-- Why the model refuses an instruction. -/
inductive Refusal where
  /-- The instruction has no meaning in this model yet. Raised by `exec`'s arms alone. Safe. -/
  | notModelled (mnemonic : String)
deriving DecidableEq, Repr

/-- The 22 predefined exceptions (Table 11, R404). -/
inductive Exc where
  | nmi | debugMode | invalidInstruction | systemInstruction | unimplementedGprBank | unimplementedInstruction
  | unimplementedRegister | invalidOperation | divisionByZero | overflow | fpInvalidOperation | fpDenormalizedOperand
  | fpDivisionByZero | fpOverflow | fpUnderflow | fpInexactResult | dspException0 | dspException1 | dspException2
  | dspException3 | iSystemBusError | dSystemBusError
deriving DecidableEq, Repr

/-- What a memory access is, for the platform that may refuse it (R419, P5). -/
inductive AccessKind where
  | fetch | load | store
deriving DecidableEq, Repr

/-- A range of addresses, both ends included, in which the platform refuses accesses of one kind (P5). -/
structure Region where
  first : Nat
  last : Nat
  kind : AccessKind
deriving DecidableEq, Repr

/-- What the environment can do to the machine between two instructions (R19, R484). -/
inductive Event where
  /-- The interrupt line signals (R429). -/
  | irq
  /-- The NMI line signals (R420). -/
  | nmi
  /-- System reset (R470). -/
  | reset
  /-- RESERVATION_LOST: the implementation gives up the reservation (R98, P4). -/
  | reservationLost
  /-- Another core or a device writes one byte of memory (R98, P9). -/
  | agentWrite (address : Nat) (value : Byte)
  /-- The DSP unit raises DSP EXCEPTION k (R453, U10). -/
  | dspException (k : Fin 4)
  /-- The DSP unit changes one of its registers (R61, U10). -/
  | dspWrite (n : Nat) (value : RegBits)
  /-- The platform's BusError predicate changes (R419, P5). -/
  | refuse (regions : List Region)
deriving DecidableEq, Repr

/-- The SCR bits 0, 2 and 3 that an entry saves (R50). -/
structure SavedBits where
  systemMode : Bool
  exceptions : Bool
  interrupts : Bool
deriving DecidableEq, Repr

/-- Memory: the listed bytes, by strictly rising address; an unlisted byte reads as `unlistedByte`
(`Sys2Proof/Machine/Ops.lean`). -/
abbrev Memory := List Host.Cell

/-- The machine. -/
structure State where
  /-- The implementation's parameters (R10); no step changes them. -/
  cfg : Config
  /-- The GPR banks, each a whole GPR file (R20, R21, R26). -/
  banks : List (List RegBits)
  /-- The DSP file; empty when there is none (R61). -/
  dsp : List RegBits
  /-- The FPR file; empty when there is none (R62). -/
  fpr : List RegBits
  /-- INSTRUCTION COUNTER (R28). -/
  ic : DWord
  /-- EXECUTION STATUS, spc2 (R34). -/
  est : Word
  /-- EXCEPTION INSTRUCTION, spc3 (R41). -/
  exi : Word
  /-- EXCEPTION REGISTER, spc4 and spc5 (R42). -/
  exc : DWord
  /-- EXCEPTION MASKS, spc6 and spc7 (R43). -/
  exm : DWord
  /-- EXCEPTION TABLE BASE ADDRESS, spc8 and spc9 (R44). -/
  etb : DWord
  /-- INTERRUPT TABLE BASE ADDRESS, spc10 and spc11 (R45). -/
  itb : DWord
  /-- CORE ID, spc12 (R46). -/
  cid : Word
  /-- PROCESS ID, spc13 and spc14 (R47). -/
  pid : DWord
  /-- SYSTEM CONTROL REGISTER, spc15 (R48). -/
  scr : Word
  /-- NMI RETURN POINTER, spc16 and spc17 (R51). -/
  nrp : DWord
  /-- EXCEPTION RETURN POINTER, spc18 and spc19 (R52). -/
  erp : DWord
  /-- USER CONTROL REGISTER, spc20 (R58). -/
  ucr : Word
  /-- CALL RETURN POINTER, spc21 and spc22 (R53). -/
  crp : DWord
  /-- INTERRUPT RETURN POINTER, spc23 and spc24 (R54). -/
  irp : DWord
  /-- DSP CONFIGURATION REGISTER, spc25 and spc26 (R56). -/
  dcr : DWord
  /-- The implementation-specific special registers, spc27 and the entries after it; empty in the reference
  configuration (R57). -/
  spcExtra : List Word
  /-- Memory (R83). -/
  mem : Memory
  /-- RESERVATION: the address and the number of bytes of the last load-locked (R64, R97). -/
  reservation : Option (Nat × Nat)
  /-- IRQ_PENDING (R64). -/
  irqPending : Bool
  /-- NMI_PENDING (R64). -/
  nmiPending : Bool
  /-- WAIT_TIMER (R64, R384). -/
  waitTimer : Nat
  /-- WAITING (R64, R385). -/
  waiting : Bool
  /-- SAVED_N (R50). -/
  savedN : Option SavedBits
  /-- SAVED_E (R50). -/
  savedE : Option SavedBits
  /-- SAVED_I (R50). -/
  savedI : Option Bool
  /-- LAST_WORD, the word of the last completed instruction (R64). -/
  lastWord : Word
  /-- ERROR_STATE (R64, R419). -/
  errorState : Bool
  /-- ERROR_LINE (R64, R447). -/
  errorLine : Bool
  /-- The model's own: the word of the instruction being executed, that EXI records (R41, R406; log 26). -/
  ir : Word
  /-- The model's own: the instruction just completed raised a potent DEBUG MODE EXCEPTION that is not yet entered
  (R412, R432 step 2; log 19). -/
  debugDue : Bool
  /-- The model's own: the platform's BusError predicate (P5; log 22). -/
  refused : List Region
  /-- The model's own: the events that arrive during each of the coming steps (P4, P7, P9; log 21). -/
  inputs : List (List Event)
  /-- The model's own: how many system resets there were, the index of the free register contents (R472; log 3). -/
  resets : Nat
deriving DecidableEq, Repr

/-- What a meaning answers. -/
abbrev Result := Host.Outcome State Fault Refusal

/-- What a GPR, DSP register or FPR holds in `State.reset`. DESIGN CHOICE (log 2): the spec states no value (R472). -/
def resetRegister : RegBits := 0

/-- The machine right after reset, in the reference configuration (R471). -/
def State.reset : State where
  cfg := Config.reference
  banks := List.replicate Config.reference.numBanks (List.replicate Config.reference.numGpr resetRegister)
  dsp := []
  fpr := []
  ic := 0
  est := 0
  exi := 0
  exc := 0
  exm := 0
  etb := 0
  itb := 0
  cid := 0
  pid := 0
  scr := 1
  nrp := 0
  erp := 0
  ucr := 0
  crp := 0
  irp := 0
  dcr := 0
  spcExtra := []
  mem := []
  reservation := none
  irqPending := false
  nmiPending := false
  waitTimer := 0
  waiting := false
  savedN := none
  savedE := none
  savedI := none
  lastWord := 0
  errorState := false
  errorLine := false
  ir := 0
  debugDue := false
  refused := []
  inputs := []
  resets := 0

end Sys2Proof.Machine
end

