-- ==== Sys2Proof/Machine/Ops.lean ====
section
/-! DEFINITION. The named operations over registers, memory, special registers, exceptions and program flow: the shared
parts of every meaning (`spec/10_state.md`, `spec/20_memory.md`, `spec/60_exceptions.md`). -/
namespace Sys2Proof.Machine

/-! ### Register files: lower modes and circularity (R22 to R25) -/

/-- Register `i` of a file, counted modulo the file's size (circularity, R17, R24). -/
def regAt (f : List RegBits) (i : Nat) : RegBits := f.getD (i % f.length) 0

/-- How many registers of `vw` bits a `w`-bit access takes: `w / vw` in R24, rounded up for a width that is no multiple
of `vw` (log 9). -/
def partsNeeded (vw w : Nat) : Nat := (w + vw - 1) / vw

/-- The number that `k` successive registers hold, the first least significant (R24). -/
def readParts (f : List RegBits) (vw n : Nat) : Nat → Nat
  | 0 => 0
  | k + 1 => readParts f vw n k + (regAt f (n + k)).toNat % 2 ^ vw * 2 ^ (vw * k)

/-- Rd(F, n, w) (R24). -/
def readFile (f : List RegBits) (vw n w : Nat) : BitVec w :=
  BitVec.ofNat w (readParts f vw n (partsNeeded vw w))

/-- A register with its low `width` bits replaced; the bits above keep their value (R22). -/
def withLow (old : RegBits) (width value : Nat) : RegBits :=
  BitVec.ofNat 1024 (old.toNat / 2 ^ width * 2 ^ width + value % 2 ^ width)

/-- The file after the first `k` parts of a `w`-bit value are written from register `n` on (R25). -/
def writeParts (f : List RegBits) (vw n w v : Nat) : Nat → List RegBits
  | 0 => f
  | k + 1 =>
    let g := writeParts f vw n w v k
    g.set ((n + k) % g.length) (withLow (regAt g (n + k)) (min vw (w - vw * k)) (v / 2 ^ (vw * k)))

/-- Wr(F, n, w, v) (R25). -/
def writeFile (f : List RegBits) (vw n : Nat) {w : Nat} (v : BitVec w) : List RegBits :=
  writeParts f vw n w v.toNat (partsNeeded vw w)

/-- Whether a `w`-bit access needs no more registers than the file has. A file that is absent fits every access: naming
it raises UNIMPLEMENTED REGISTER (R135), not the exception of U3 (D39, log 10). -/
def accessFits (f : List RegBits) (vw w : Nat) : Bool :=
  f.length == 0 || decide (partsNeeded vw w ≤ f.length)

/-- The visible width of a GPR file: the largest Table 1 width not above GPR_WIDTH (R23, D2). -/
def visibleWidth (gprWidth : Nat) : Nat :=
  if 1024 ≤ gprWidth then 1024
  else if 512 ≤ gprWidth then 512
  else if 256 ≤ gprWidth then 256
  else if 128 ≤ gprWidth then 128
  else if 64 ≤ gprWidth then 64
  else if 32 ≤ gprWidth then 32
  else if 16 ≤ gprWidth then 16
  else 8

/-- VW, the visible width of this machine's GPR file (R23). -/
abbrev State.vw (s : State) : Nat := visibleWidth s.cfg.gprWidth

/-- The number of the GPR bank in use, SCR[7:4] (R26). -/
def State.bank (s : State) : Nat := s.scr.toNat / 16 % 16

/-- REG: the GPR file of the bank in use (R26). -/
def State.gpr (s : State) : List RegBits := s.banks.getD s.bank []

/-- The state with another GPR file in the bank in use. -/
def State.withGpr (s : State) (f : List RegBits) : State := { s with banks := s.banks.set s.bank f }

/-- Rd(REG, n, w) (R24). -/
def State.readGpr (s : State) (n w : Nat) : BitVec w := readFile s.gpr s.vw n w

/-- Wr(REG, n, w, v) (R25). -/
def State.writeGpr (s : State) (n : Nat) {w : Nat} (v : BitVec w) : State := s.withGpr (writeFile s.gpr s.vw n v)

/-- DSP_WIDTH in bits (R61). -/
abbrev State.dspWidth (s : State) : Nat := s.cfg.dspMode.width

/-- Rd(DSP, n, w) (R61). -/
def State.readDsp (s : State) (n w : Nat) : BitVec w := readFile s.dsp s.dspWidth n w

/-- Wr(DSP, n, w, v) (R61). -/
def State.writeDsp (s : State) (n : Nat) {w : Nat} (v : BitVec w) : State :=
  { s with dsp := writeFile s.dsp s.dspWidth n v }

/-- Rd(FPR, n, w) (R62). -/
def State.readFpr (s : State) (n w : Nat) : BitVec w := readFile s.fpr s.cfg.fprWidth n w

/-- Wr(FPR, n, w, v) (R62). -/
def State.writeFpr (s : State) (n : Nat) {w : Nat} (v : BitVec w) : State :=
  { s with fpr := writeFile s.fpr s.cfg.fprWidth n v }

/-- The file the FP instructions use: the FPR file where there is one, else REG (R62, R283). -/
def State.fpFile (s : State) : List RegBits := if s.cfg.hasFpr then s.fpr else s.gpr

/-- How many bits of each register the FP machine mode uses: all of them (R23). -/
def State.fpPart (s : State) : Nat := if s.cfg.hasFpr then s.cfg.fprWidth else s.cfg.gprWidth

/-- Rd of an FP operand (R283). -/
def State.readFp (s : State) (n w : Nat) : BitVec w := readFile s.fpFile s.fpPart n w

/-- Wr of an FP result (R283). -/
def State.writeFp (s : State) (n : Nat) {w : Nat} (v : BitVec w) : State :=
  if s.cfg.hasFpr then { s with fpr := writeFile s.fpr s.cfg.fprWidth n v }
  else s.withGpr (writeFile s.gpr s.cfg.gprWidth n v)

/-! ### Special register file (R30 to R33) -/

/-- The GPR width code of IMP; a width outside Table 1 has none and the value is free (R33, N11, log 7). -/
def gprWidthCode (w : Nat) : Nat :=
  if w = 8 then 0 else if w = 16 then 1 else if w = 32 then 2 else if w = 64 then 3
  else if w = 128 then 4 else if w = 256 then 5 else if w = 512 then 6 else if w = 1024 then 7
  else (Config.gprWidthCode w).toNat

/-- The IMPLEMENTATION REGISTER (R33); bit 44 reads 0 (N11), and so do the DSP fields without a DSP unit. -/
def impValue (c : Config) : DWord :=
  BitVec.ofNat 64 (c.maxTransfer.code + gprWidthCode c.gprWidth * 2 ^ 3 + c.aluMode.code * 2 ^ 6
    + (c.physAddrWidth - 1) % 64 * 2 ^ 9 + c.separateId.toNat * 2 ^ 15 + c.fpuType.toNat * 2 ^ 16
    + c.archNumber.toNat % 2 ^ 12 * 2 ^ 20 + (c.numGpr - 1) % 64 * 2 ^ 32 + (c.pidWidth - 1) % 64 * 2 ^ 38
    + c.hasMul.toNat * 2 ^ 45 + c.hasDiv.toNat * 2 ^ 46
    + (if c.hasDsp then c.dspMode.code * 2 ^ 47 + (c.numDsp - 1) % 64 * 2 ^ 50 else 0)
    + c.archNumber.toNat / 2 ^ 12 * 2 ^ 56)

/-- The low half of a 64-bit special register as a file entry (R30). -/
def lowEntry (v : DWord) : RegBits := BitVec.ofNat 1024 (v.toNat % 2 ^ 32)

/-- The high half of a 64-bit special register as a file entry (R30). -/
def highEntry (v : DWord) : RegBits := BitVec.ofNat 1024 (v.toNat / 2 ^ 32)

/-- A 32-bit special register as a file entry (R30). -/
def wordEntry (v : Word) : RegBits := BitVec.ofNat 1024 v.toNat

/-- SPC: the 27 entries of the special register file in the order of Table 12 (R31), then the implementation's own
(R57). Its length is NUM_SPC. -/
def State.spcFile (s : State) : List RegBits :=
  [lowEntry (impValue s.cfg), highEntry (impValue s.cfg), wordEntry s.est, wordEntry s.exi,
   lowEntry s.exc, highEntry s.exc, lowEntry s.exm, highEntry s.exm, lowEntry s.etb, highEntry s.etb,
   lowEntry s.itb, highEntry s.itb, wordEntry s.cid, lowEntry s.pid, highEntry s.pid, wordEntry s.scr,
   lowEntry s.nrp, highEntry s.nrp, lowEntry s.erp, highEntry s.erp, wordEntry s.ucr,
   lowEntry s.crp, highEntry s.crp, lowEntry s.irp, highEntry s.irp, lowEntry s.dcr, highEntry s.dcr]
   ++ s.spcExtra.map wordEntry

/-- Entry `n` of a special register file as a 32-bit register. -/
def entryWord (f : List RegBits) (n : Nat) : Word := BitVec.ofNat 32 (f.getD n 0).toNat

/-- Entries `n` and `n + 1` as a 64-bit register, the higher entry more significant (R30). -/
def entryPair (f : List RegBits) (n : Nat) : DWord :=
  BitVec.ofNat 64 ((f.getD n 0).toNat % 2 ^ 32 + (f.getD (n + 1) 0).toNat % 2 ^ 32 * 2 ^ 32)

/-- The state whose special registers are those of a file; IMP is fixed (R33). -/
def State.withSpcFile (s : State) (f : List RegBits) : State :=
  { s with
    est := entryWord f 2, exi := entryWord f 3, exc := entryPair f 4, exm := entryPair f 6, etb := entryPair f 8,
    itb := entryPair f 10, cid := entryWord f 12, pid := entryPair f 13, scr := entryWord f 15,
    nrp := entryPair f 16, erp := entryPair f 18, ucr := entryWord f 20, crp := entryPair f 21,
    irp := entryPair f 23, dcr := entryPair f 25,
    spcExtra := (f.drop 27).map fun r => BitVec.ofNat 32 r.toNat }

/-- Rd(SPC, n, w) (R24, R30). -/
def State.readSpc (s : State) (n w : Nat) : BitVec w := readFile s.spcFile s.cfg.spcWidth n w

/-- Wr(SPC, n, w, v) (R25, R30). -/
def State.writeSpc (s : State) (n : Nat) {w : Nat} (v : BitVec w) : State :=
  s.withSpcFile (writeFile s.spcFile s.cfg.spcWidth n v)

/-- The entries a `w`-bit write at entry `d` touches, in ascending order of j in R25 (R32). -/
def State.touchedEntries (s : State) (d w : Nat) : List Nat :=
  (List.range (partsNeeded s.cfg.spcWidth w)).map fun j => (d + j) % s.spcFile.length

/-- Read only in user mode: spc0 to spc19 (Table 12, R31), and of the implementation's own entries those it says. -/
def userReadOnly (c : Config) (n : Nat) : Bool :=
  decide (n ≤ 19) || decide (27 ≤ n) && (c.spcUserReadOnly.contains n || c.spcReadOnly.contains n)

/-- Read only in system mode too: spc0 and spc1 (Table 12, R31), and of the implementation's own entries those it
says. -/
def systemReadOnly (c : Config) (n : Nat) : Bool := decide (n ≤ 1) || decide (27 ≤ n) && c.spcReadOnly.contains n

/-! ### INSTRUCTION COUNTER (R28, R29) -/

/-- A value as INSTRUCTION COUNTER contents: modulo 2^IC_WIDTH (R29, D4). -/
def wrapIc (c : Config) (v : DWord) : DWord := BitVec.ofNat 64 (v.toNat % 2 ^ c.icWidth)

/-- IC + 1 (R28, R29). -/
def State.icNext (s : State) : DWord := wrapIc s.cfg (s.ic + 1)

/-- `IC <- IC + 1` (R28). -/
def State.advance (s : State) : State := { s with ic := s.icNext }

/-! ### Memory (R83 to R90) -/

/-- What a byte of memory that nothing has written reads as. DESIGN CHOICE (log 4): the spec states no contents
(R473). -/
def unlistedByte : Byte := 0

/-- The byte at an address. -/
def Memory.byteAt : Memory → Nat → Byte
  | [], _ => unlistedByte
  | (k, v) :: t, a => if k = a then v else Memory.byteAt t a

/-- Memory with one byte written, in canonical form. -/
def Memory.setByte : Memory → Nat → Byte → Memory
  | [], a, v => if v = unlistedByte then [] else [(a, v)]
  | (k, x) :: t, a, v =>
    if a < k then (if v = unlistedByte then (k, x) :: t else (a, v) :: (k, x) :: t)
    else if a = k then (if v = unlistedByte then t else (a, v) :: t)
    else (k, x) :: Memory.setByte t a v

/-- The canonical form: addresses strictly rising, and no byte listed that an unlisted address would read. -/
def Memory.wf : Memory → Bool
  | [] => true
  | [(_, v)] => decide (v ≠ unlistedByte)
  | (k, v) :: (k', v') :: t => decide (k < k') && decide (v ≠ unlistedByte) && Memory.wf ((k', v') :: t)

/-- Every listed address is below a bound. -/
def Memory.below (bound : Nat) (m : Memory) : Bool := m.all fun c => decide (c.1 < bound)

/-- The size of the address space in bytes, 2^PHYS_ADDR_WIDTH (R83). -/
def addressSpace (c : Config) : Nat := 2 ^ c.physAddrWidth

/-- The significance of the byte at offset `i` of an `n`-byte value, 0 the least (R84, R85). -/
def byteRank (c : Config) (n i : Nat) : Nat := if c.bigEndian then n - 1 - i else i

/-- The number that the first `k` of the `n` bytes at an address contribute (R84). -/
def Memory.readBytes (c : Config) (m : Memory) (addr n : Nat) : Nat → Nat
  | 0 => 0
  | k + 1 => Memory.readBytes c m addr n k
      + (Memory.byteAt m ((addr + k) % addressSpace c)).toNat * 2 ^ (8 * byteRank c n k)

/-- Memory after the first `k` of the `n` bytes of a value are written at an address (R85). DESIGN CHOICE (log 44):
where the value has more bytes than the address space, which the spec does not treat, several bytes go to one address
and the one at the highest offset stays. -/
def Memory.writeBytes (c : Config) (m : Memory) (addr n v : Nat) : Nat → Memory
  | 0 => m
  | k + 1 => Memory.setByte (Memory.writeBytes c m addr n v k) ((addr + k) % addressSpace c)
      (BitVec.ofNat 8 (v / 2 ^ (8 * byteRank c n k)))

/-- MemRead(addr, n) (R84), as a number. -/
def State.memRead (s : State) (addr n : Nat) : Nat := Memory.readBytes s.cfg s.mem addr n n

/-- MemWrite(addr, n, v) (R85). -/
def State.memWrite (s : State) (addr n v : Nat) : State :=
  { s with mem := Memory.writeBytes s.cfg s.mem addr n v n }

/-- Whether `a` is one of the `n` bytes at `addr`, modulo the address space (R84). -/
def inBytes (c : Config) (addr n a : Nat) : Bool :=
  (List.range n).any fun i => (addr + i) % addressSpace c == a

/-- BusError(kind, addr, n): the platform refuses the access (R419, P5, log 22). -/
def State.busError (s : State) (kind : AccessKind) (addr n : Nat) : Bool :=
  s.refused.any fun r => r.kind == kind
    && (List.range n).any fun i =>
      decide (r.first ≤ (addr + i) % addressSpace s.cfg) && decide ((addr + i) % addressSpace s.cfg ≤ r.last)

/-- The byte address of the instruction at IC (R88). -/
def State.fetchAddress (s : State) : Nat := 4 * s.ic.toNat

/-- Fetch(IC) (R88). -/
def State.fetchWord (s : State) : Word := BitVec.ofNat 32 (s.memRead s.fetchAddress 4)

/-! ### Exceptions: marking, potency, entry and return (`spec/60_exceptions.md`) -/

/-- The number of an exception, its bit in EXC and EXM (R404). -/
def Exc.number : Exc → Nat
  | .nmi => 0 | .debugMode => 1 | .invalidInstruction => 2 | .systemInstruction => 3 | .unimplementedGprBank => 4
  | .unimplementedInstruction => 5 | .unimplementedRegister => 6 | .invalidOperation => 7 | .divisionByZero => 8
  | .overflow => 9 | .fpInvalidOperation => 10 | .fpDenormalizedOperand => 11 | .fpDivisionByZero => 12
  | .fpOverflow => 13 | .fpUnderflow => 14 | .fpInexactResult => 15 | .dspException0 => 16 | .dspException1 => 17
  | .dspException2 => 18 | .dspException3 => 19 | .iSystemBusError => 20 | .dSystemBusError => 21

/-- DSP EXCEPTION k (R453). -/
def dspExc (k : Fin 4) : Exc :=
  match k with
  | 0 => .dspException0
  | 1 => .dspException1
  | 2 => .dspException2
  | 3 => .dspException3

/-- The bit of an exception in EXC and EXM (R42). -/
def Exc.bit (e : Exc) : DWord := 1#64 <<< e.number

/-- SCR[0], SYSTEM MODE (R48). -/
def State.systemMode (s : State) : Bool := s.scr.getLsbD 0

/-- SCR[1], DEBUG MODE (R48). -/
def State.debugMode (s : State) : Bool := s.scr.getLsbD 1

/-- SCR[2], ENABLE EXCEPTIONS (R48). -/
def State.exceptionsEnabled (s : State) : Bool := s.scr.getLsbD 2

/-- SCR[3], ENABLE INTERRUPTS (R48). -/
def State.interruptsEnabled (s : State) : Bool := s.scr.getLsbD 3

/-- The sync line: a copy of UCR[4] (R58, R447). -/
def State.syncLine (s : State) : Bool := s.ucr.getLsbD 4

/-- potent_exc(n): exceptions enabled and this one not masked (R401). -/
def State.potent (s : State) (e : Exc) : Bool := s.exceptionsEnabled && !s.exm.getLsbD e.number

/-- Mark raised exceptions in EXC (R42). -/
def markBits (exc : DWord) : List Exc → DWord
  | [] => exc
  | e :: es => markBits (exc ||| e.bit) es

/-- Mark the exceptions an instruction raised in EXC, and the instruction in EXI where there is one (R41, R42). -/
def State.mark (s : State) (es : List Exc) : State :=
  match es with
  | [] => s
  | e :: rest => { s with exc := markBits s.exc (e :: rest), exi := s.ir }

/-- The SCR bits 0, 2 and 3 (R50). -/
def savedBits (scr : Word) : SavedBits := ⟨scr.getLsbD 0, scr.getLsbD 2, scr.getLsbD 3⟩

/-- SCR with bits 0, 2 and 3 replaced; the other bits keep their value (R422, R427). -/
def withSavedBits (scr : Word) (b : SavedBits) : Word :=
  (scr &&& 0xFFFFFFF2#32) ||| (BitVec.ofBool b.systemMode).setWidth 32
    ||| ((BitVec.ofBool b.exceptions).setWidth 32 <<< 2) ||| ((BitVec.ofBool b.interrupts).setWidth 32 <<< 3)

/-- EnterException(rp), the entry sequence of every exception (R422): ERP and SAVED_E are written, system mode is
entered, exceptions and interrupts are disabled, and IC goes to ETB. The EXC and EXI writes are the caller's. -/
def State.enterException (s : State) (rp : DWord) : State :=
  { s with
    erp := rp, savedE := some (savedBits s.scr), scr := withSavedBits s.scr ⟨true, false, false⟩,
    ic := wrapIc s.cfg s.etb }

/-- NMI entry (R420). -/
def State.enterNmi (s : State) : State :=
  { s with
    nmiPending := false, nrp := s.ic, exc := s.exc ||| Exc.nmi.bit, exi := s.lastWord,
    savedN := some (savedBits s.scr), scr := withSavedBits s.scr ⟨true, false, false⟩,
    ic := wrapIc s.cfg s.etb, debugDue := false }

/-- Interrupt entry (R428): SCR[2], EXC and EXI are not changed. -/
def State.enterInterrupt (s : State) : State :=
  { s with
    irqPending := false, irp := s.ic, savedI := some (s.scr.getLsbD 3),
    scr := withSavedBits s.scr ⟨true, s.scr.getLsbD 2, false⟩, ic := wrapIc s.cfg s.itb }

/-- Where a return goes: the pointer, or the instruction before it when P = 1 (R375). -/
def returnTarget (c : Config) (p : Bool) (rp : DWord) : DWord :=
  wrapIc c (if p then rp - 1 else rp)

/-- The SCR bits of a matching entry restored; nothing when the slot is empty (R50, R427). -/
def restoreScr (scr : Word) : Option SavedBits → Word
  | none => scr
  | some b => withSavedBits scr b

/-- The return from an exception handler (R378): IC, SCR bits 0, 2 and 3, and SAVED_E. -/
def State.leaveException (s : State) (p : Bool) : State :=
  { s with ic := returnTarget s.cfg p s.erp, scr := restoreScr s.scr s.savedE, savedE := none }

/-- The return from the NMI handler (R379): IC, SCR bits 0, 2 and 3, and SAVED_N. -/
def State.leaveNmi (s : State) (p : Bool) : State :=
  { s with ic := returnTarget s.cfg p s.nrp, scr := restoreScr s.scr s.savedN, savedN := none }

/-- The return from an interrupt handler (R377): IC, SCR bit 3 alone, and SAVED_I. -/
def State.leaveInterrupt (s : State) (p : Bool) : State :=
  { s with
    ic := returnTarget s.cfg p s.irp,
    scr := restoreScr s.scr (s.savedI.map fun i => ⟨s.scr.getLsbD 0, s.scr.getLsbD 2, i⟩), savedI := none }

/-! ### Completing, skipping, aborting (R406 to R409, R412) -/

/-- The instruction in `ir` has completed and left `s`, having started in `start`: LAST_WORD is written, and in debug
mode the DEBUG MODE EXCEPTION is raised, potent as judged on the state the instruction started in (R64, R412). -/
def State.retire (s start : State) : State :=
  if s.debugMode then
    { s with
      lastWord := s.ir, exc := s.exc ||| Exc.debugMode.bit, exi := s.ir, debugDue := start.potent .debugMode }
  else { s with lastWord := s.ir }

/-- A potent instruction-raised exception: the instruction writes nothing, handling is entered with ERP = IC + 1
(R406). DESIGN CHOICE (log 45): the entry is part of the instruction, so an NMI that arrives during it is taken at the
boundary after and interrupts the handler before its first instruction. -/
def State.abort (s : State) (raised : List Exc) : State := (s.mark raised).enterException s.icNext

/-- EST[1], UNIMPLEMENTED OPERATION, set; the other bits keep their value (R35, D6). -/
def State.setUnimplementedFlag (s : State) : State := { s with est := s.est ||| 2#32 }

/-- An impotent exception of the skipped kind: EXC, EXI and IC + 1, and EST[1] where an arithmetic/logic instruction is
not implemented (R408, R35). -/
def State.skip (s : State) (e : Exc) (arithmetic : Bool) : State :=
  ((if arithmetic && e == .unimplementedInstruction then s.setUnimplementedFlag else s).mark [e]).advance.retire s

/-- An exception that keeps the instruction from being executed, numbers 2 to 7 (R406, R408). -/
def State.raiseCheck (s : State) (e : Exc) (arithmetic : Bool) : State :=
  if s.potent e then s.abort [e] else s.skip e arithmetic

/-- The first check that holds, the only exception raised (R409). -/
def firstHit : List (Bool × Exc) → Option Exc
  | [] => none
  | (c, e) :: rest => if c then some e else firstHit rest

/-- An instruction behind its checks: the first that holds is raised, else the instruction does its work (R409). -/
def State.guarded (s : State) (arithmetic : Bool) (checks : List (Bool × Exc)) (work : State) : State :=
  match firstHit checks with
  | some e => s.raiseCheck e arithmetic
  | none => work

/-- The EST after its low 16 bits are written; bits 31:16 keep their value (R205, R233, R291). -/
def withFlags (est : Word) (flags : BitVec 16) : Word := est.extractLsb' 16 16 ++ flags

/-- An arithmetic/logic instruction at its end (R213, R290, R406, R408): when an exception it raised is potent, nothing
is written and handling is entered; else the state with its results written gets the flags, EXC, EXI and IC + 1. -/
def State.complete (s : State) (raised : List Exc) (flags : BitVec 16) (written : State) : State :=
  if raised.any s.potent then s.abort raised
  else ({ written with est := withFlags written.est flags }.mark raised).advance.retire s

/-- D SYSTEM BUS ERROR (R178, R419): the transfer writes nothing, IC + 1, EXC[21], EXI and the error line. When potent,
the boundary that follows enters handling with ERP = IC (R432). -/
def State.dataBusError (s : State) : State :=
  { s.mark [.dSystemBusError] with errorLine := true }.advance.retire s

/-- I SYSTEM BUS ERROR at the fetch of the word at IC (R419). Its entry, as that of `State.abort`, comes before an NMI
that arrives in the same step (DESIGN CHOICE, log 45). -/
def State.fetchBusError (s : State) : State :=
  let t := { s with exc := s.exc ||| Exc.iSystemBusError.bit, exi := s.lastWord, errorLine := true }
  if s.potent .iSystemBusError then t.enterException s.ic else { t with errorState := true }

/-! ### Instruction boundaries (R432, R433) -/

/-- Some exception other than number 1 is marked, not masked, and exceptions are enabled (R433). -/
def State.exceptionPending (s : State) : Bool :=
  s.exceptionsEnabled && (s.exc &&& ~~~s.exm &&& ~~~Exc.debugMode.bit) != 0

/-- The events due at an instruction boundary, in the order of R432. An NMI that is due together with a debug entry is
entered and drops it (log 19). One entry disables all that ranks below it, so examining the boundary again finds
nothing. No boundary stands inside a pause (R386) or in ERROR_STATE (R419). -/
def State.boundary (s : State) : State :=
  if s.waiting || s.errorState then s
  else if s.nmiPending then s.enterNmi
  else if s.debugDue then { s with debugDue := false }.enterException s.ic
  else if s.exceptionPending then s.enterException s.ic
  else if s.irqPending && s.interruptsEnabled then s.enterInterrupt
  else s

/-- The pause ends: IC + 1, WAIT has completed (R385, R386). -/
def State.endPause (s : State) : State := { s with waiting := false, waitTimer := 0 }.advance.retire s

/-- One clock cycle of a paused core (R385). -/
def State.pauseCycle (s : State) : State :=
  if s.nmiPending then s.endPause
  else if s.irqPending && s.interruptsEnabled then s.endPause
  else if s.waitTimer = 0 then s
  else if s.waitTimer = 1 then s.endPause
  else { s with waitTimer := s.waitTimer - 1 }

/-! ### Reset and the environment (R470 to R473, R484) -/

/-- The contents of a register file after a reset: free values of the file's width (R472, U16, log 3). -/
def fileAfterReset (reset file width : Nat) (f : List RegBits) : List RegBits :=
  (List.range f.length).map fun n =>
    BitVec.ofNat 1024 ((Config.registerAfterReset reset file n).toNat % 2 ^ width)

/-- System reset (R471): special registers and hidden state to their reset values, IC to 0, memory unchanged (R473), the
other registers to free values (R472). -/
def State.systemReset (s : State) : State :=
  { s with
    banks := (List.range s.banks.length).map fun b =>
      fileAfterReset s.resets (b + 2) s.cfg.gprWidth (s.banks.getD b []),
    dsp := fileAfterReset s.resets 0 s.cfg.dspMode.width s.dsp,
    fpr := fileAfterReset s.resets 1 s.cfg.fprWidth s.fpr,
    ic := 0, est := 0, exi := 0, exc := 0, exm := 0, etb := 0, itb := 0, cid := 0, pid := 0, scr := 1, nrp := 0,
    erp := 0, ucr := 0, crp := 0, irp := 0, dcr := 0, spcExtra := s.spcExtra.map fun _ => 0,
    reservation := none, irqPending := false, nmiPending := false,
    waitTimer := 0, waiting := false, savedN := none, savedE := none, savedI := none, lastWord := 0,
    errorState := false, errorLine := false, ir := 0, debugDue := false, resets := s.resets + 1 }

/-- What one event of the environment does. -/
def State.receive (s : State) : Event → State
  | .irq => { s with irqPending := true }
  | .nmi => { s with nmiPending := true }
  | .reset => s.systemReset
  | .reservationLost => { s with reservation := none }
  | .agentWrite a v =>
    let a := a % addressSpace s.cfg
    { s with
      mem := Memory.setByte s.mem a v,
      reservation := match s.reservation with
        | some (ea, n) => if inBytes s.cfg ea n a then none else some (ea, n)
        | none => none }
  | .dspException k =>
    if s.cfg.hasDsp then { s with exc := s.exc ||| (dspExc k).bit, exi := s.lastWord } else s
  | .dspWrite n v =>
    { s with dsp := s.dsp.set n (BitVec.ofNat 1024 (v.toNat % 2 ^ s.cfg.dspMode.width)) }
  | .refuse regions => { s with refused := regions }

/-- The events of one step, in order. -/
def State.receiveAll (s : State) : List Event → State
  | [] => s
  | e :: es => (s.receive e).receiveAll es

/-- The events that arrive during this step, received at the boundary that ends it (log 20, log 21). -/
def State.arrive (s : State) : State :=
  match s.inputs with
  | [] => s
  | now :: later => { s with inputs := later }.receiveAll now

end Sys2Proof.Machine
end

