-- ==== Sys2Proof/Machine/Operands.lean ====
section
/-! DEFINITION. Operand forms: immediates and their extension (`spec/30_encoding.md` R117, R122), memory addressing
(`spec/40_data_transfer.md` R171), transfer values (`spec/46_control.md` R351), and the checks every family opens with
(R173, R202, R232, R252, R287, R333, R355). -/
namespace Sys2Proof.Machine

/-- An immediate extended to `w` bits: sign-extended for U = 0, zero-extended for U = 1, and cut to its low bits where
`w` is smaller (R117, R122). -/
def extendImm (u : Bool) {n : Nat} (imm : BitVec n) (w : Nat) : BitVec w :=
  if u then imm.setWidth w else imm.signExtend w

/-- The integer a `w`-bit operand denotes: two's complement for U = 0, unsigned for U = 1 (R15, R201). -/
def intValue (u : Bool) {w : Nat} (v : BitVec w) : Int := if u then (v.toNat : Int) else v.toInt

/-- How an address form changes its index register (R115, R171). -/
inductive IndexUpdate where
  | none | postInc | postDec | preInc | preDec
deriving DecidableEq, Repr

/-- The address forms of a memory transfer (R114, R115). -/
inductive Addressing where
  /-- `reg<b>[<off>]` -/
  | displacement (b : Nat) (off : BitVec 12)
  /-- `[reg<x>]` with its updates -/
  | register (x : Nat) (upd : IndexUpdate)
  /-- `reg<b>[reg<x>]` with its updates -/
  | indexed (b x : Nat) (upd : IndexUpdate)
deriving DecidableEq, Repr

/-- The GPR numbers a form uses, for the check of R173 step 4. -/
def Addressing.registers : Addressing → List Nat
  | .displacement b _ => [b]
  | .register x _ => [x]
  | .indexed b x _ => [b, x]

/-- The index value that forms the address (R171). -/
def IndexUpdate.used (upd : IndexUpdate) {w : Nat} (idx step : BitVec w) : BitVec w :=
  match upd with
  | .none => idx
  | .postInc => idx
  | .postDec => idx
  | .preInc => idx + step
  | .preDec => idx - step

/-- The value the index register ends with, where the form updates it (R171). -/
def IndexUpdate.next (upd : IndexUpdate) {w : Nat} (idx step : BitVec w) : Option (BitVec w) :=
  match upd with
  | .none => Option.none
  | .postInc => some (idx + step)
  | .postDec => some (idx - step)
  | .preInc => some (idx + step)
  | .preDec => some (idx - step)

/-- The sum of R171, modulo 2^VW. -/
def Addressing.sum (a : Addressing) (m : MMode) (s : State) : BitVec s.vw :=
  match a with
  | .displacement b off => s.readGpr b s.vw + off.signExtend s.vw
  | .register x upd => upd.used (s.readGpr x s.vw) (BitVec.ofNat s.vw m.bytes)
  | .indexed b x upd => s.readGpr b s.vw + upd.used (s.readGpr x s.vw) (BitVec.ofNat s.vw m.bytes)

/-- The effective address: the low PHYS_ADDR_WIDTH bits of the sum (R83, R171). DESIGN CHOICE (log 42): where VW is
greater than PHYS_ADDR_WIDTH, these bits and not the whole sum are also what a reservation holds and is compared
with. -/
def Addressing.address (a : Addressing) (m : MMode) (s : State) : Nat :=
  (a.sum m s).toNat % addressSpace s.cfg

/-- The state after the index update of a form, from the registers of `s` (R171, R172). -/
def Addressing.updateIndex (a : Addressing) (m : MMode) (s t : State) : State :=
  match a with
  | .displacement _ _ => t
  | .register x upd =>
    match upd.next (s.readGpr x s.vw) (BitVec.ofNat s.vw m.bytes) with
    | Option.none => t
    | some v => t.writeGpr x v
  | .indexed _ x upd =>
    match upd.next (s.readGpr x s.vw) (BitVec.ofNat s.vw m.bytes) with
    | Option.none => t
    | some v => t.writeGpr x v

/-- The transfer value of a register, sign-extended to IC_WIDTH or cut to it (R351). -/
def State.locationValue (s : State) (l : Nat) : DWord := wrapIc s.cfg ((s.readGpr l s.vw).signExtend 64)

/-- The transfer value of an offset field, sign-extended to IC_WIDTH (R351). -/
def State.offsetValue (s : State) {n : Nat} (off : BitVec n) : DWord := wrapIc s.cfg (off.signExtend 64)

/-! ### Checks -/

/-- A word the implementation leaves out beyond its modes and units (IMPLEMENTED, R10, log 11). -/
def State.lacks (s : State) : Bool := s.cfg.leavesOut s.ir

/-- A register of a file that is not implemented (R27, R417). -/
def missing (f : List RegBits) (n : Nat) : Bool := decide (f.length ≤ n)

/-- The mode is implemented for arithmetic/logic and branch instructions (R134). -/
def State.hasMode (s : State) (m : MMode) : Bool := decide (m.code ≤ s.cfg.topMode.code)

/-- The width is implemented for data transfers (R91). -/
def State.hasTransfer (s : State) (m : MMode) : Bool := decide (m.code ≤ s.cfg.maxTransfer.code)

/-- An FPU is present (R280). -/
def State.hasFpu (s : State) : Bool := s.cfg.fpuType != 0

/-- The checks of an instruction on GPRs: implemented (and its widest access, `w` bits, fits the file, D39), then every
GPR it names (R202, R232, R252, R333, R355). -/
def State.gprChecks (s : State) (implemented : Bool) (w : Nat) (regs : List Nat) : List (Bool × Exc) :=
  [(!implemented || s.lacks || !accessFits s.gpr s.vw w, .unimplementedInstruction),
   (regs.any (missing s.gpr), .unimplementedRegister)]

/-- The checks of an FP instruction whose widest FP access is `w` bits (R287). -/
def State.fpChecks (s : State) (implemented : Bool) (w : Nat) (regs : List Nat) : List (Bool × Exc) :=
  [(!s.hasFpu || !implemented || s.lacks || !accessFits s.fpFile s.fpPart w, .unimplementedInstruction),
   (regs.any (missing s.fpFile), .unimplementedRegister)]

/-- The checks of a memory transfer (R173): DESTINATION and the registers of the address form. -/
def State.memoryChecks (s : State) (m : MMode) (d : Nat) (a : Addressing) : List (Bool × Exc) :=
  s.gprChecks (s.hasTransfer m) m.width (d :: a.registers)

/-- The checks of an inter-register transfer between two files, one of them REG (R173). -/
def State.moveChecks (s : State) (m : MMode) (dst : List RegBits) (dstVw d : Nat) (src : List RegBits)
    (srcVw x : Nat) : List (Bool × Exc) :=
  [(!s.hasTransfer m || s.lacks || !accessFits dst dstVw m.width || !accessFits src srcVw m.width,
    .unimplementedInstruction),
   (missing dst d || missing src x, .unimplementedRegister)]

/-- The checks of `SPC[d] <- REG[x]` (R173, R409): system instruction, GPR bank, width, register, read-only entry; the
bank after width and register where the implementation takes the order of R173 (log 12). `after` is the state the write
would leave; a register that does not exist holds no bank number. DESIGN CHOICE (log 48): where the move needs more
entries than the file has and so puts two parts in SCR, the bank number is that of the later part. -/
def State.specialWriteChecks (s : State) (m : MMode) (d x : Nat) (after : State) : List (Bool × Exc) :=
  let bank := [(after.bank != s.bank && decide (s.banks.length ≤ after.bank) && !missing s.spcFile d
    && !missing s.gpr x, Exc.unimplementedGprBank)]
  let move := s.moveChecks m s.spcFile s.cfg.spcWidth d s.gpr s.vw x
  [(!s.systemMode && !missing s.spcFile d && (s.touchedEntries d m.width).any (userReadOnly s.cfg),
    .systemInstruction)]
  ++ (if s.cfg.bankCheckFirst then bank ++ move else move ++ bank)
  ++ [((s.touchedEntries d m.width).any (systemReadOnly s.cfg), .invalidOperation)]

end Sys2Proof.Machine
end

