-- ==== Sys2Proof/Machine/Flags.lean ====
section
/-! DEFINITION. The flags of EXECUTION STATUS (`spec/10_state.md` R34 to R37) and the two integer flag rules: IntEST
(`spec/41_integer_arith.md` R205) and LogEST (`spec/42_shift_rotate.md` R233). -/
namespace Sys2Proof.Machine

/-- EST[15:0], one field per flag (R34). -/
structure EstFlags where
  invalid : Bool := false
  unimplemented : Bool := false
  divisionByZero : Bool := false
  overflow : Bool := false
  underflow : Bool := false
  equal : Bool := false
  greater : Bool := false
  less : Bool := false
  inexact : Bool := false
  unordered : Bool := false
  sign : Bool := false
  zero : Bool := false
  denormalized : Bool := false
  infinity : Bool := false
  signalingNan : Bool := false
  nan : Bool := false
deriving DecidableEq, Repr

/-- The flags at their places (R34). -/
def EstFlags.bits (f : EstFlags) : BitVec 16 :=
  BitVec.ofBoolListLE
    [f.invalid, f.unimplemented, f.divisionByZero, f.overflow, f.underflow, f.equal, f.greater, f.less, f.inexact,
     f.unordered, f.sign, f.zero, f.denormalized, f.infinity, f.signalingNan, f.nan]

/-- IntEST(op1, op2, U, res, rw, ov, dz) (R205): the comparison is signed for U = 0 and unsigned for U = 1. -/
def intFlags (u : Bool) {w rw : Nat} (op1 op2 : BitVec w) (res : BitVec rw) (ov dz : Bool) : BitVec 16 :=
  EstFlags.bits
    { divisionByZero := dz
      overflow := ov
      equal := decide (intValue u op1 = intValue u op2)
      greater := decide (intValue u op2 < intValue u op1)
      less := decide (intValue u op1 < intValue u op2)
      sign := res.msb
      zero := res == 0 }

/-- LogEST(op1, op2, res, ov, 0) (R233): the comparison is unsigned whatever U is. -/
def logFlags {w : Nat} (op1 op2 res : BitVec w) (ov : Bool) : BitVec 16 :=
  EstFlags.bits
    { overflow := ov
      equal := decide (op1.toNat = op2.toNat)
      greater := decide (op2.toNat < op1.toNat)
      less := decide (op1.toNat < op2.toNat)
      sign := res.msb
      zero := res == 0 }

/-- LogEST with no result, for an invalid bit position (R263): SIGN and ZERO are 0 (D24). -/
def invalidBitFlags {w : Nat} (op1 op2 : BitVec w) : BitVec 16 :=
  EstFlags.bits
    { invalid := true
      equal := decide (op1.toNat = op2.toNat)
      greater := decide (op2.toNat < op1.toNat)
      less := decide (op1.toNat < op2.toNat) }

end Sys2Proof.Machine
end

