-- ==== Sys2Proof/Machine/Bitwise.lean ====
section
/-! DEFINITION. SL, SR, RL, RR (`spec/42_shift_rotate.md`) and AND, NAND, OR, XOR, SB, RB, TB, RVB
(`spec/43_logic_bit.md`). -/
namespace Sys2Proof.Machine

/-- A left shift by `n` places; W or more gives 0 (R234). -/
def shiftLeft {w : Nat} (v : BitVec w) (n : Nat) : BitVec w := if w ≤ n then 0 else v <<< n

/-- A right shift by `n` places that pulls `fill` (R235). -/
def shiftRight {w : Nat} (v : BitVec w) (n : Nat) (fill : Bool) : BitVec w :=
  if w ≤ n then (if fill then BitVec.allOnes w else 0)
  else if fill then (v >>> n) ||| ~~~(BitVec.allOnes w >>> n) else v >>> n

/-- The low `k` bits of a number in reverse order (R267). -/
def reverseBits : Nat → Nat → Nat
  | 0, _ => 0
  | k + 1, v => v % 2 * 2 ^ k + reverseBits k (v / 2)

/-- RVB's result: bits hi down to 0 reversed, the bits above kept (R267). -/
def reverseLow {w : Nat} (v : BitVec w) (hi : Nat) : BitVec w :=
  BitVec.ofNat w (v.toNat / 2 ^ (hi + 1) * 2 ^ (hi + 1) + reverseBits (hi + 1) v.toNat)

/-- A shift, rotate or logic instruction with its operands fetched and its result computed (R232, R252). -/
def runLogic (m : MMode) (d : Nat) (regs : List Nat) (op1 op2 res : BitVec m.width) (ov : Bool) (s : State) : State :=
  s.guarded true (s.gprChecks (s.hasMode m) m.width regs)
    (s.complete (if ov then [.overflow] else []) (logFlags op1 op2 res ov) (s.writeGpr d res))

/-- SL: arithmetic for U = 0, which overflows when the MSB changes (R234). -/
def runSl (m : MMode) (u : Bool) (d : Nat) (regs : List Nat) (op2 : BitVec m.width) (s : State) : State :=
  let op1 := s.readGpr d m.width
  let res := shiftLeft op1 op2.toNat
  runLogic m d regs op1 op2 res (!u && res.msb != op1.msb) s

/-- SR: arithmetic for U = 0, logic for U = 1 (R235). -/
def runSr (m : MMode) (u : Bool) (d : Nat) (regs : List Nat) (op2 : BitVec m.width) (s : State) : State :=
  let op1 := s.readGpr d m.width
  runLogic m d regs op1 op2 (shiftRight op1 op2.toNat (!u && op1.msb)) false s

/-- RL: the count modulo W (R236). -/
def runRl (m : MMode) (d : Nat) (regs : List Nat) (op2 : BitVec m.width) (s : State) : State :=
  let op1 := s.readGpr d m.width
  runLogic m d regs op1 op2 (op1.rotateLeft (op2.toNat % m.width)) false s

/-- RR: the count modulo W (R237). -/
def runRr (m : MMode) (d : Nat) (regs : List Nat) (op2 : BitVec m.width) (s : State) : State :=
  let op1 := s.readGpr d m.width
  runLogic m d regs op1 op2 (op1.rotateRight (op2.toNat % m.width)) false s

/-- AND (R253). -/
def runAnd (m : MMode) (d : Nat) (regs : List Nat) (op2 : BitVec m.width) (s : State) : State :=
  let op1 := s.readGpr d m.width
  runLogic m d regs op1 op2 (op1 &&& op2) false s

/-- NAND (R254). -/
def runNand (m : MMode) (d : Nat) (regs : List Nat) (op2 : BitVec m.width) (s : State) : State :=
  let op1 := s.readGpr d m.width
  runLogic m d regs op1 op2 (~~~(op1 &&& op2)) false s

/-- OR (R255). -/
def runOr (m : MMode) (d : Nat) (regs : List Nat) (op2 : BitVec m.width) (s : State) : State :=
  let op1 := s.readGpr d m.width
  runLogic m d regs op1 op2 (op1 ||| op2) false s

/-- XOR (R256). -/
def runXor (m : MMode) (d : Nat) (regs : List Nat) (op2 : BitVec m.width) (s : State) : State :=
  let op1 := s.readGpr d m.width
  runLogic m d regs op1 op2 (op1 ^^^ op2) false s

/-- A bit number outside the operand or the ALU (R262). -/
def invalidBit (c : Config) (w b : Nat) : Bool := decide (w ≤ b) || decide (c.aluMode.width ≤ b)

/-- A bit instruction with its operands fetched and its result computed (R252, R262, R263): an invalid bit number
raises INVALID OPERATION and, impotent, keeps the destination (log 24). -/
def runBit (m : MMode) (d : Nat) (regs : List Nat) (op1 op2 res : BitVec m.width) (s : State) : State :=
  s.guarded true (s.gprChecks (s.hasMode m) m.width regs)
    (if invalidBit s.cfg m.width op2.toNat then s.complete [.invalidOperation] (invalidBitFlags op1 op2) s
     else s.complete [] (logFlags op1 op2 res false) (s.writeGpr d res))

/-- SB (R264). -/
def runSb (m : MMode) (d : Nat) (regs : List Nat) (op2 : BitVec m.width) (s : State) : State :=
  let op1 := s.readGpr d m.width
  runBit m d regs op1 op2 (op1 ||| shiftLeft (1#m.width) op2.toNat) s

/-- RB (R265). -/
def runRb (m : MMode) (d : Nat) (regs : List Nat) (op2 : BitVec m.width) (s : State) : State :=
  let op1 := s.readGpr d m.width
  runBit m d regs op1 op2 (op1 &&& ~~~(shiftLeft (1#m.width) op2.toNat)) s

/-- TB: the tested bit, zero-extended (R266). -/
def runTb (m : MMode) (d : Nat) (regs : List Nat) (op2 : BitVec m.width) (s : State) : State :=
  let op1 := s.readGpr d m.width
  runBit m d regs op1 op2 (BitVec.ofNat m.width (op1.getLsbD op2.toNat).toNat) s

/-- RVB (R267). -/
def runRvb (m : MMode) (d : Nat) (regs : List Nat) (op2 : BitVec m.width) (s : State) : State :=
  let op1 := s.readGpr d m.width
  runBit m d regs op1 op2 (if m.width ≤ op2.toNat then op1 else reverseLow op1 op2.toNat) s

/-! ### The instructions -/

/-- SL, register (R234). -/
def execSlReg (m : MMode) (u : Bool) (d r : Nat) (s : State) : Result :=
  .next (runSl m u d [d, r] (s.readGpr r m.width) s)

/-- SL, immediate14 (R234). -/
def execSlImm (m : MMode) (u : Bool) (d : Nat) (imm : BitVec 14) (s : State) : Result :=
  .next (runSl m u d [d] (extendImm true imm m.width) s)

/-- SR, register (R235). -/
def execSrReg (m : MMode) (u : Bool) (d r : Nat) (s : State) : Result :=
  .next (runSr m u d [d, r] (s.readGpr r m.width) s)

/-- SR, immediate14 (R235). -/
def execSrImm (m : MMode) (u : Bool) (d : Nat) (imm : BitVec 14) (s : State) : Result :=
  .next (runSr m u d [d] (extendImm true imm m.width) s)

/-- RL, register (R236). -/
def execRlReg (m : MMode) (d r : Nat) (s : State) : Result :=
  .next (runRl m d [d, r] (s.readGpr r m.width) s)

/-- RL, immediate14 (R236). -/
def execRlImm (m : MMode) (d : Nat) (imm : BitVec 14) (s : State) : Result :=
  .next (runRl m d [d] (extendImm true imm m.width) s)

/-- RR, register (R237). -/
def execRrReg (m : MMode) (d r : Nat) (s : State) : Result :=
  .next (runRr m d [d, r] (s.readGpr r m.width) s)

/-- RR, immediate14 (R237). -/
def execRrImm (m : MMode) (d : Nat) (imm : BitVec 14) (s : State) : Result :=
  .next (runRr m d [d] (extendImm true imm m.width) s)

/-- AND, register (R253); the U bit is not used (R251). -/
def execAndReg (m : MMode) (_u : Bool) (d r : Nat) (s : State) : Result :=
  .next (runAnd m d [d, r] (s.readGpr r m.width) s)

/-- AND, immediate14 (R253). -/
def execAndImm (m : MMode) (u : Bool) (d : Nat) (imm : BitVec 14) (s : State) : Result :=
  .next (runAnd m d [d] (extendImm u imm m.width) s)

/-- NAND, register (R254); the U bit is not used (R251). -/
def execNandReg (m : MMode) (_u : Bool) (d r : Nat) (s : State) : Result :=
  .next (runNand m d [d, r] (s.readGpr r m.width) s)

/-- NAND, immediate14 (R254). -/
def execNandImm (m : MMode) (u : Bool) (d : Nat) (imm : BitVec 14) (s : State) : Result :=
  .next (runNand m d [d] (extendImm u imm m.width) s)

/-- OR, register (R255); the U bit is not used (R251). -/
def execOrReg (m : MMode) (_u : Bool) (d r : Nat) (s : State) : Result :=
  .next (runOr m d [d, r] (s.readGpr r m.width) s)

/-- OR, immediate14 (R255). -/
def execOrImm (m : MMode) (u : Bool) (d : Nat) (imm : BitVec 14) (s : State) : Result :=
  .next (runOr m d [d] (extendImm u imm m.width) s)

/-- XOR, register (R256); the U bit is not used (R251). -/
def execXorReg (m : MMode) (_u : Bool) (d r : Nat) (s : State) : Result :=
  .next (runXor m d [d, r] (s.readGpr r m.width) s)

/-- XOR, immediate14 (R256). -/
def execXorImm (m : MMode) (u : Bool) (d : Nat) (imm : BitVec 14) (s : State) : Result :=
  .next (runXor m d [d] (extendImm u imm m.width) s)

/-- SB, register (R264). -/
def execSbReg (m : MMode) (d r : Nat) (s : State) : Result :=
  .next (runSb m d [d, r] (s.readGpr r m.width) s)

/-- SB, immediate14 (R264). -/
def execSbImm (m : MMode) (d : Nat) (imm : BitVec 14) (s : State) : Result :=
  .next (runSb m d [d] (extendImm true imm m.width) s)

/-- RB, register (R265). -/
def execRbReg (m : MMode) (d r : Nat) (s : State) : Result :=
  .next (runRb m d [d, r] (s.readGpr r m.width) s)

/-- RB, immediate14 (R265). -/
def execRbImm (m : MMode) (d : Nat) (imm : BitVec 14) (s : State) : Result :=
  .next (runRb m d [d] (extendImm true imm m.width) s)

/-- TB, register (R266). -/
def execTbReg (m : MMode) (d r : Nat) (s : State) : Result :=
  .next (runTb m d [d, r] (s.readGpr r m.width) s)

/-- TB, immediate14 (R266). -/
def execTbImm (m : MMode) (d : Nat) (imm : BitVec 14) (s : State) : Result :=
  .next (runTb m d [d] (extendImm true imm m.width) s)

/-- RVB, register (R267). -/
def execRvbReg (m : MMode) (d r : Nat) (s : State) : Result :=
  .next (runRvb m d [d, r] (s.readGpr r m.width) s)

/-- RVB, immediate14 (R267). -/
def execRvbImm (m : MMode) (d : Nat) (imm : BitVec 14) (s : State) : Result :=
  .next (runRvb m d [d] (extendImm true imm m.width) s)

end Sys2Proof.Machine
end

