-- ==== Sys2Proof/Machine/Control.lean ====
section
/-! DEFINITION. JMP, the twelve branches, the four returns and WAIT (`spec/46_control.md`). -/
namespace Sys2Proof.Machine

/-- A program transfer with value `v` (R352, R353): relative to the instruction's own number or absolute; procedural, it
also writes CRP with IC + 1. -/
def State.transfer (s : State) (a p : Bool) (v : DWord) : State :=
  { s with crp := if p then s.icNext else s.crp, ic := if a then v else wrapIc s.cfg (s.ic + v) }

/-- JMP with its transfer value formed (R355, R360). -/
def runJump (a p : Bool) (regs : List Nat) (v : DWord) (s : State) : State :=
  s.guarded false (s.gprChecks true 0 regs) ((s.transfer a p v).retire s)

/-- A branch with its condition and its transfer value formed (R355, R356). -/
def runBranch (m : MMode) (a p : Bool) (regs : List Nat) (taken : Bool) (v : DWord) (s : State) : State :=
  s.guarded false (s.gprChecks (s.hasMode m) m.width regs)
    ((if taken then s.transfer a p v else s.advance).retire s)

/-- Every bit of the argument is 0 (R354). -/
def allZero {w : Nat} (v : BitVec w) : Bool := v == 0

/-- Every bit of the argument is 1 (R354). -/
def allOne {w : Nat} (v : BitVec w) : Bool := v == BitVec.allOnes w

/-- The argument's bit 0 (R354). -/
def lsb {w : Nat} (v : BitVec w) : Bool := v.getLsbD 0

/-- BZ's condition (R361). -/
def condBz {w : Nat} (v : BitVec w) : Bool := allZero v

/-- BNZ's condition (R362). -/
def condBnz {w : Nat} (v : BitVec w) : Bool := !allZero v

/-- BM's condition (R363). -/
def condBm {w : Nat} (v : BitVec w) : Bool := v.msb

/-- BMZ's condition (R364). -/
def condBmz {w : Nat} (v : BitVec w) : Bool := v.msb || allZero v

/-- BNM's condition (R365). -/
def condBnm {w : Nat} (v : BitVec w) : Bool := !v.msb

/-- BNMO's condition (R366). -/
def condBnmo {w : Nat} (v : BitVec w) : Bool := !v.msb || allOne v

/-- BL's condition (R367). -/
def condBl {w : Nat} (v : BitVec w) : Bool := lsb v

/-- BLZ's condition (R368). -/
def condBlz {w : Nat} (v : BitVec w) : Bool := lsb v || allZero v

/-- BNL's condition (R369). -/
def condBnl {w : Nat} (v : BitVec w) : Bool := !lsb v

/-- BNLO's condition (R370). -/
def condBnlo {w : Nat} (v : BitVec w) : Bool := !lsb v || allOne v

/-- BO's condition (R371). -/
def condBo {w : Nat} (v : BitVec w) : Bool := allOne v

/-- BNO's condition (R372). -/
def condBno {w : Nat} (v : BitVec w) : Bool := !allOne v

/-- WAIT with its value formed (R382, R383): the timer keeps the low WAIT_TIMER_WIDTH bits, IC is not changed, and the
instruction completes when the pause ends (R386). -/
def runWait (regs : List Nat) (value : Nat) (s : State) : State :=
  s.guarded false (s.gprChecks true 0 regs)
    { s with waitTimer := value % 2 ^ s.cfg.waitTimerWidth, waiting := true }

/-- The check of a return that is no system instruction (R355). -/
def State.returnChecks (s : State) : List (Bool × Exc) := [(s.lacks, .unimplementedInstruction)]

/-- The checks of RETE and RETN (R355, R378, R414). -/
def State.systemReturnChecks (s : State) : List (Bool × Exc) :=
  [(!s.systemMode, .systemInstruction), (s.lacks, .unimplementedInstruction)]

/-! ### The instructions -/

/-- JMP, register (R360). -/
def execJmpReg (a p : Bool) (l : Nat) (s : State) : Result :=
  .next (runJump a p [l] (s.locationValue l) s)

/-- JMP, offset20 (R360). -/
def execJmpOff (a p : Bool) (off : BitVec 20) (s : State) : Result :=
  .next (runJump a p [] (s.offsetValue off) s)

/-- BZ, register (R361). -/
def execBzReg (m : MMode) (a p : Bool) (g l : Nat) (s : State) : Result :=
  .next (runBranch m a p [g, l] (condBz (s.readGpr g m.width)) (s.locationValue l) s)

/-- BZ, offset14 (R361). -/
def execBzOff (m : MMode) (a p : Bool) (g : Nat) (off : BitVec 14) (s : State) : Result :=
  .next (runBranch m a p [g] (condBz (s.readGpr g m.width)) (s.offsetValue off) s)

/-- BNZ, register (R362). -/
def execBnzReg (m : MMode) (a p : Bool) (g l : Nat) (s : State) : Result :=
  .next (runBranch m a p [g, l] (condBnz (s.readGpr g m.width)) (s.locationValue l) s)

/-- BNZ, offset14 (R362). -/
def execBnzOff (m : MMode) (a p : Bool) (g : Nat) (off : BitVec 14) (s : State) : Result :=
  .next (runBranch m a p [g] (condBnz (s.readGpr g m.width)) (s.offsetValue off) s)

/-- BM, register (R363). -/
def execBmReg (m : MMode) (a p : Bool) (g l : Nat) (s : State) : Result :=
  .next (runBranch m a p [g, l] (condBm (s.readGpr g m.width)) (s.locationValue l) s)

/-- BM, offset14 (R363). -/
def execBmOff (m : MMode) (a p : Bool) (g : Nat) (off : BitVec 14) (s : State) : Result :=
  .next (runBranch m a p [g] (condBm (s.readGpr g m.width)) (s.offsetValue off) s)

/-- BMZ, register (R364). -/
def execBmzReg (m : MMode) (a p : Bool) (g l : Nat) (s : State) : Result :=
  .next (runBranch m a p [g, l] (condBmz (s.readGpr g m.width)) (s.locationValue l) s)

/-- BMZ, offset14 (R364). -/
def execBmzOff (m : MMode) (a p : Bool) (g : Nat) (off : BitVec 14) (s : State) : Result :=
  .next (runBranch m a p [g] (condBmz (s.readGpr g m.width)) (s.offsetValue off) s)

/-- BNM, register (R365). -/
def execBnmReg (m : MMode) (a p : Bool) (g l : Nat) (s : State) : Result :=
  .next (runBranch m a p [g, l] (condBnm (s.readGpr g m.width)) (s.locationValue l) s)

/-- BNM, offset14 (R365). -/
def execBnmOff (m : MMode) (a p : Bool) (g : Nat) (off : BitVec 14) (s : State) : Result :=
  .next (runBranch m a p [g] (condBnm (s.readGpr g m.width)) (s.offsetValue off) s)

/-- BNMO, register (R366). -/
def execBnmoReg (m : MMode) (a p : Bool) (g l : Nat) (s : State) : Result :=
  .next (runBranch m a p [g, l] (condBnmo (s.readGpr g m.width)) (s.locationValue l) s)

/-- BNMO, offset14 (R366). -/
def execBnmoOff (m : MMode) (a p : Bool) (g : Nat) (off : BitVec 14) (s : State) : Result :=
  .next (runBranch m a p [g] (condBnmo (s.readGpr g m.width)) (s.offsetValue off) s)

/-- BL, register (R367). -/
def execBlReg (m : MMode) (a p : Bool) (g l : Nat) (s : State) : Result :=
  .next (runBranch m a p [g, l] (condBl (s.readGpr g m.width)) (s.locationValue l) s)

/-- BL, offset14 (R367). -/
def execBlOff (m : MMode) (a p : Bool) (g : Nat) (off : BitVec 14) (s : State) : Result :=
  .next (runBranch m a p [g] (condBl (s.readGpr g m.width)) (s.offsetValue off) s)

/-- BLZ, register (R368). -/
def execBlzReg (m : MMode) (a p : Bool) (g l : Nat) (s : State) : Result :=
  .next (runBranch m a p [g, l] (condBlz (s.readGpr g m.width)) (s.locationValue l) s)

/-- BLZ, offset14 (R368). -/
def execBlzOff (m : MMode) (a p : Bool) (g : Nat) (off : BitVec 14) (s : State) : Result :=
  .next (runBranch m a p [g] (condBlz (s.readGpr g m.width)) (s.offsetValue off) s)

/-- BNL, register (R369). -/
def execBnlReg (m : MMode) (a p : Bool) (g l : Nat) (s : State) : Result :=
  .next (runBranch m a p [g, l] (condBnl (s.readGpr g m.width)) (s.locationValue l) s)

/-- BNL, offset14 (R369). -/
def execBnlOff (m : MMode) (a p : Bool) (g : Nat) (off : BitVec 14) (s : State) : Result :=
  .next (runBranch m a p [g] (condBnl (s.readGpr g m.width)) (s.offsetValue off) s)

/-- BNLO, register (R370). -/
def execBnloReg (m : MMode) (a p : Bool) (g l : Nat) (s : State) : Result :=
  .next (runBranch m a p [g, l] (condBnlo (s.readGpr g m.width)) (s.locationValue l) s)

/-- BNLO, offset14 (R370). -/
def execBnloOff (m : MMode) (a p : Bool) (g : Nat) (off : BitVec 14) (s : State) : Result :=
  .next (runBranch m a p [g] (condBnlo (s.readGpr g m.width)) (s.offsetValue off) s)

/-- BO, register (R371). -/
def execBoReg (m : MMode) (a p : Bool) (g l : Nat) (s : State) : Result :=
  .next (runBranch m a p [g, l] (condBo (s.readGpr g m.width)) (s.locationValue l) s)

/-- BO, offset14 (R371). -/
def execBoOff (m : MMode) (a p : Bool) (g : Nat) (off : BitVec 14) (s : State) : Result :=
  .next (runBranch m a p [g] (condBo (s.readGpr g m.width)) (s.offsetValue off) s)

/-- BNO, register (R372). -/
def execBnoReg (m : MMode) (a p : Bool) (g l : Nat) (s : State) : Result :=
  .next (runBranch m a p [g, l] (condBno (s.readGpr g m.width)) (s.locationValue l) s)

/-- BNO, offset14 (R372). -/
def execBnoOff (m : MMode) (a p : Bool) (g : Nat) (off : BitVec 14) (s : State) : Result :=
  .next (runBranch m a p [g] (condBno (s.readGpr g m.width)) (s.offsetValue off) s)

/-- RET (R376). -/
def execRet (p : Bool) (s : State) : Result :=
  .next (s.guarded false s.returnChecks ({ s with ic := returnTarget s.cfg p s.crp }.retire s))

/-- RETI (R377). -/
def execReti (p : Bool) (s : State) : Result :=
  .next (s.guarded false s.returnChecks ((s.leaveInterrupt p).retire s))

/-- RETE (R378). -/
def execRete (p : Bool) (s : State) : Result :=
  .next (s.guarded false s.systemReturnChecks ((s.leaveException p).retire s))

/-- RETN (R379). -/
def execRetn (p : Bool) (s : State) : Result :=
  .next (s.guarded false s.systemReturnChecks ((s.leaveNmi p).retire s))

/-- WAIT, register (R382). -/
def execWaitReg (l : Nat) (s : State) : Result :=
  .next (runWait [l] (s.readGpr l s.vw).toNat s)

/-- WAIT, offset20 (R382). -/
def execWaitImm (n : BitVec 20) (s : State) : Result :=
  .next (runWait [] n.toNat s)

end Sys2Proof.Machine
end

