-- ==== Sys2Proof/Machine/DataTransfer.lean ====
section
/-! DEFINITION. MOV: the memory transfers, the inter-register transfers and load immediate
(`spec/40_data_transfer.md`). -/
namespace Sys2Proof.Machine

/-- The work of a load that is not refused: index register first, destination second (R172, R174). -/
def loaded (m : MMode) (d : Nat) (a : Addressing) (s : State) : State :=
  (a.updateIndex m s s).writeGpr d (BitVec.ofNat m.width (s.memRead (a.address m s) m.bytes))

/-- MOV, load (R174). -/
def runLoad (m : MMode) (d : Nat) (a : Addressing) (s : State) : State :=
  s.guarded false (s.memoryChecks m d a)
    (if s.busError .load (a.address m s) m.bytes then s.dataBusError
     else (loaded m d a s).advance.retire s)

/-- MOV, load-locked: a load that also makes the reservation (R176, R97), over the address that memory is addressed with
(log 42). -/
def runLoadLocked (m : MMode) (d : Nat) (a : Addressing) (s : State) : State :=
  s.guarded false (s.memoryChecks m d a)
    (if s.busError .load (a.address m s) m.bytes then s.dataBusError
     else { loaded m d a s with reservation := some (a.address m s, m.bytes) }.advance.retire s)

/-- The work of a store that is not refused: the value is read before the index update (R172, R175). -/
def stored (m : MMode) (d : Nat) (a : Addressing) (s : State) : State :=
  a.updateIndex m s (s.memWrite (a.address m s) m.bytes (s.readGpr d m.width).toNat)

/-- MOV, store (R175). -/
def runStore (m : MMode) (d : Nat) (a : Addressing) (s : State) : State :=
  s.guarded false (s.memoryChecks m d a)
    (if s.busError .store (a.address m s) m.bytes then s.dataBusError
     else (stored m d a s).advance.retire s)

/-- Whether a store-conditional succeeds: the reservation is over this address and width (R99, R177), addresses compared
as memory is addressed (DESIGN CHOICE, log 42). -/
def reservationHolds (m : MMode) (a : Addressing) (s : State) : Bool :=
  s.reservation == some (a.address m s, m.bytes)

/-- The work of a store-conditional that is not refused (R99, R177): the store where it succeeds, the reservation
emptied, the index update, and 1 or 0 in the destination. -/
def conditionallyStored (m : MMode) (d : Nat) (a : Addressing) (s : State) : State :=
  let ok := reservationHolds m a s
  let t := if ok then s.memWrite (a.address m s) m.bytes (s.readGpr d m.width).toNat else s
  (a.updateIndex m s { t with reservation := none }).writeGpr d (BitVec.ofNat m.width ok.toNat)

/-- MOV, store-conditional (R177). -/
def runStoreConditional (m : MMode) (d : Nat) (a : Addressing) (s : State) : State :=
  s.guarded false (s.memoryChecks m d a)
    (if reservationHolds m a s && s.busError .store (a.address m s) m.bytes then s.dataBusError
     else (conditionallyStored m d a s).advance.retire s)

/-- The end of `SPC[d] <- REG[x]`, which touched the entries named: EXM[0] stays 0, and a write to PROCESS ID restarts
at instruction 0 (R43, R47, R182). -/
def specialWritten (touched : List Nat) (t : State) : State :=
  let t := if touched.contains 6 then { t with exm := t.exm &&& ~~~1#64 } else t
  if touched.contains 13 || touched.contains 14 then { t with ic := 0 } else t.advance

/-- MOV, load, reg<b>[<off>] (R174). -/
def execLoadDisp (m : MMode) (d b : Nat) (off : BitVec 12) (s : State) : Result :=
  .next (runLoad m d (.displacement b off) s)

/-- MOV, load, [reg<x>] (R174). -/
def execLoadReg (m : MMode) (d x : Nat) (s : State) : Result :=
  .next (runLoad m d (.register x .none) s)

/-- MOV, load, [reg<x>++] (R174). -/
def execLoadRegPostInc (m : MMode) (d x : Nat) (s : State) : Result :=
  .next (runLoad m d (.register x .postInc) s)

/-- MOV, load, [reg<x>--] (R174). -/
def execLoadRegPostDec (m : MMode) (d x : Nat) (s : State) : Result :=
  .next (runLoad m d (.register x .postDec) s)

/-- MOV, load, [++reg<x>] (R174). -/
def execLoadRegPreInc (m : MMode) (d x : Nat) (s : State) : Result :=
  .next (runLoad m d (.register x .preInc) s)

/-- MOV, load, [--reg<x>] (R174). -/
def execLoadRegPreDec (m : MMode) (d x : Nat) (s : State) : Result :=
  .next (runLoad m d (.register x .preDec) s)

/-- MOV, load, reg<b>[reg<x>] (R174). -/
def execLoadIdx (m : MMode) (d b x : Nat) (s : State) : Result :=
  .next (runLoad m d (.indexed b x .none) s)

/-- MOV, load, reg<b>[reg<x>++] (R174). -/
def execLoadIdxPostInc (m : MMode) (d b x : Nat) (s : State) : Result :=
  .next (runLoad m d (.indexed b x .postInc) s)

/-- MOV, load, reg<b>[reg<x>--] (R174). -/
def execLoadIdxPostDec (m : MMode) (d b x : Nat) (s : State) : Result :=
  .next (runLoad m d (.indexed b x .postDec) s)

/-- MOV, load, reg<b>[++reg<x>] (R174). -/
def execLoadIdxPreInc (m : MMode) (d b x : Nat) (s : State) : Result :=
  .next (runLoad m d (.indexed b x .preInc) s)

/-- MOV, load, reg<b>[--reg<x>] (R174). -/
def execLoadIdxPreDec (m : MMode) (d b x : Nat) (s : State) : Result :=
  .next (runLoad m d (.indexed b x .preDec) s)

/-- MOV, store, reg<b>[<off>] (R175). -/
def execStoreDisp (m : MMode) (d b : Nat) (off : BitVec 12) (s : State) : Result :=
  .next (runStore m d (.displacement b off) s)

/-- MOV, store, [reg<x>] (R175). -/
def execStoreReg (m : MMode) (d x : Nat) (s : State) : Result :=
  .next (runStore m d (.register x .none) s)

/-- MOV, store, [reg<x>++] (R175). -/
def execStoreRegPostInc (m : MMode) (d x : Nat) (s : State) : Result :=
  .next (runStore m d (.register x .postInc) s)

/-- MOV, store, [reg<x>--] (R175). -/
def execStoreRegPostDec (m : MMode) (d x : Nat) (s : State) : Result :=
  .next (runStore m d (.register x .postDec) s)

/-- MOV, store, [++reg<x>] (R175). -/
def execStoreRegPreInc (m : MMode) (d x : Nat) (s : State) : Result :=
  .next (runStore m d (.register x .preInc) s)

/-- MOV, store, [--reg<x>] (R175). -/
def execStoreRegPreDec (m : MMode) (d x : Nat) (s : State) : Result :=
  .next (runStore m d (.register x .preDec) s)

/-- MOV, store, reg<b>[reg<x>] (R175). -/
def execStoreIdx (m : MMode) (d b x : Nat) (s : State) : Result :=
  .next (runStore m d (.indexed b x .none) s)

/-- MOV, store, reg<b>[reg<x>++] (R175). -/
def execStoreIdxPostInc (m : MMode) (d b x : Nat) (s : State) : Result :=
  .next (runStore m d (.indexed b x .postInc) s)

/-- MOV, store, reg<b>[reg<x>--] (R175). -/
def execStoreIdxPostDec (m : MMode) (d b x : Nat) (s : State) : Result :=
  .next (runStore m d (.indexed b x .postDec) s)

/-- MOV, store, reg<b>[++reg<x>] (R175). -/
def execStoreIdxPreInc (m : MMode) (d b x : Nat) (s : State) : Result :=
  .next (runStore m d (.indexed b x .preInc) s)

/-- MOV, store, reg<b>[--reg<x>] (R175). -/
def execStoreIdxPreDec (m : MMode) (d b x : Nat) (s : State) : Result :=
  .next (runStore m d (.indexed b x .preDec) s)

/-- MOV, load-locked, reg<b>[<off>] (R176). -/
def execLoadLockedDisp (m : MMode) (d b : Nat) (off : BitVec 12) (s : State) : Result :=
  .next (runLoadLocked m d (.displacement b off) s)

/-- MOV, load-locked, [reg<x>] (R176). -/
def execLoadLockedReg (m : MMode) (d x : Nat) (s : State) : Result :=
  .next (runLoadLocked m d (.register x .none) s)

/-- MOV, load-locked, [reg<x>++] (R176). -/
def execLoadLockedRegPostInc (m : MMode) (d x : Nat) (s : State) : Result :=
  .next (runLoadLocked m d (.register x .postInc) s)

/-- MOV, load-locked, [reg<x>--] (R176). -/
def execLoadLockedRegPostDec (m : MMode) (d x : Nat) (s : State) : Result :=
  .next (runLoadLocked m d (.register x .postDec) s)

/-- MOV, load-locked, [++reg<x>] (R176). -/
def execLoadLockedRegPreInc (m : MMode) (d x : Nat) (s : State) : Result :=
  .next (runLoadLocked m d (.register x .preInc) s)

/-- MOV, load-locked, [--reg<x>] (R176). -/
def execLoadLockedRegPreDec (m : MMode) (d x : Nat) (s : State) : Result :=
  .next (runLoadLocked m d (.register x .preDec) s)

/-- MOV, load-locked, reg<b>[reg<x>] (R176). -/
def execLoadLockedIdx (m : MMode) (d b x : Nat) (s : State) : Result :=
  .next (runLoadLocked m d (.indexed b x .none) s)

/-- MOV, load-locked, reg<b>[reg<x>++] (R176). -/
def execLoadLockedIdxPostInc (m : MMode) (d b x : Nat) (s : State) : Result :=
  .next (runLoadLocked m d (.indexed b x .postInc) s)

/-- MOV, load-locked, reg<b>[reg<x>--] (R176). -/
def execLoadLockedIdxPostDec (m : MMode) (d b x : Nat) (s : State) : Result :=
  .next (runLoadLocked m d (.indexed b x .postDec) s)

/-- MOV, load-locked, reg<b>[++reg<x>] (R176). -/
def execLoadLockedIdxPreInc (m : MMode) (d b x : Nat) (s : State) : Result :=
  .next (runLoadLocked m d (.indexed b x .preInc) s)

/-- MOV, load-locked, reg<b>[--reg<x>] (R176). -/
def execLoadLockedIdxPreDec (m : MMode) (d b x : Nat) (s : State) : Result :=
  .next (runLoadLocked m d (.indexed b x .preDec) s)

/-- MOV, store-conditional, reg<b>[<off>] (R177). -/
def execStoreCondDisp (m : MMode) (d b : Nat) (off : BitVec 12) (s : State) : Result :=
  .next (runStoreConditional m d (.displacement b off) s)

/-- MOV, store-conditional, [reg<x>] (R177). -/
def execStoreCondReg (m : MMode) (d x : Nat) (s : State) : Result :=
  .next (runStoreConditional m d (.register x .none) s)

/-- MOV, store-conditional, [reg<x>++] (R177). -/
def execStoreCondRegPostInc (m : MMode) (d x : Nat) (s : State) : Result :=
  .next (runStoreConditional m d (.register x .postInc) s)

/-- MOV, store-conditional, [reg<x>--] (R177). -/
def execStoreCondRegPostDec (m : MMode) (d x : Nat) (s : State) : Result :=
  .next (runStoreConditional m d (.register x .postDec) s)

/-- MOV, store-conditional, [++reg<x>] (R177). -/
def execStoreCondRegPreInc (m : MMode) (d x : Nat) (s : State) : Result :=
  .next (runStoreConditional m d (.register x .preInc) s)

/-- MOV, store-conditional, [--reg<x>] (R177). -/
def execStoreCondRegPreDec (m : MMode) (d x : Nat) (s : State) : Result :=
  .next (runStoreConditional m d (.register x .preDec) s)

/-- MOV, store-conditional, reg<b>[reg<x>] (R177). -/
def execStoreCondIdx (m : MMode) (d b x : Nat) (s : State) : Result :=
  .next (runStoreConditional m d (.indexed b x .none) s)

/-- MOV, store-conditional, reg<b>[reg<x>++] (R177). -/
def execStoreCondIdxPostInc (m : MMode) (d b x : Nat) (s : State) : Result :=
  .next (runStoreConditional m d (.indexed b x .postInc) s)

/-- MOV, store-conditional, reg<b>[reg<x>--] (R177). -/
def execStoreCondIdxPostDec (m : MMode) (d b x : Nat) (s : State) : Result :=
  .next (runStoreConditional m d (.indexed b x .postDec) s)

/-- MOV, store-conditional, reg<b>[++reg<x>] (R177). -/
def execStoreCondIdxPreInc (m : MMode) (d b x : Nat) (s : State) : Result :=
  .next (runStoreConditional m d (.indexed b x .preInc) s)

/-- MOV, store-conditional, reg<b>[--reg<x>] (R177). -/
def execStoreCondIdxPreDec (m : MMode) (d b x : Nat) (s : State) : Result :=
  .next (runStoreConditional m d (.indexed b x .preDec) s)

/-- MOV, inter-register, REG[d] <- REG[x] (R180). -/
def execMovRegReg (m : MMode) (d x : Nat) (s : State) : Result :=
  .next (s.guarded false (s.moveChecks m s.gpr s.vw d s.gpr s.vw x)
    ((s.writeGpr d (s.readGpr x m.width)).advance.retire s))

/-- MOV, inter-register, REG[d] <- SPC[x] (R181). -/
def execMovRegSpc (m : MMode) (d x : Nat) (s : State) : Result :=
  .next (s.guarded false (s.moveChecks m s.gpr s.vw d s.spcFile s.cfg.spcWidth x)
    ((s.writeGpr d (s.readSpc x m.width)).advance.retire s))

/-- MOV, inter-register, SPC[d] <- REG[x] (R182). The bank that R49's check looks at is the one in the file as the write
would leave it; for a move with more parts than the file has entries that is the later part (DESIGN CHOICE, log 48). -/
def execMovSpcReg (m : MMode) (d x : Nat) (s : State) : Result :=
  let after := s.writeSpc d (s.readGpr x m.width)
  .next (s.guarded false (s.specialWriteChecks m d x after)
    ((specialWritten (s.touchedEntries d m.width) after).retire s))

/-- MOV, inter-register, REG[d] <- DSP[x] (R183). -/
def execMovRegDsp (m : MMode) (d x : Nat) (s : State) : Result :=
  .next (s.guarded false (s.moveChecks m s.gpr s.vw d s.dsp s.dspWidth x)
    ((s.writeGpr d (s.readDsp x m.width)).advance.retire s))

/-- MOV, inter-register, DSP[d] <- REG[x] (R184). -/
def execMovDspReg (m : MMode) (d x : Nat) (s : State) : Result :=
  .next (s.guarded false (s.moveChecks m s.dsp s.dspWidth d s.gpr s.vw x)
    ((s.writeDsp d (s.readGpr x m.width)).advance.retire s))

/-- MOV, inter-register, REG[d] <- FPR[x] (R185). -/
def execMovRegFpr (m : MMode) (d x : Nat) (s : State) : Result :=
  .next (s.guarded false (s.moveChecks m s.gpr s.vw d s.fpr s.cfg.fprWidth x)
    ((s.writeGpr d (s.readFpr x m.width)).advance.retire s))

/-- MOV, inter-register, FPR[d] <- REG[x] (R186). -/
def execMovFprReg (m : MMode) (d x : Nat) (s : State) : Result :=
  .next (s.guarded false (s.moveChecks m s.fpr s.cfg.fprWidth d s.gpr s.vw x)
    ((s.writeFpr d (s.readGpr x m.width)).advance.retire s))

/-- MOV, load immediate (R188). -/
def execLoadImm (m : MMode) (u : Bool) (d : Nat) (imm : BitVec 18) (s : State) : Result :=
  .next (s.guarded false (s.gprChecks (s.hasTransfer m) m.width [d])
    ((s.writeGpr d (extendImm u imm m.width)).advance.retire s))

end Sys2Proof.Machine
end

