-- ==== Sys2Proof/Machine/FpCore.lean ====
section
/-! DEFINITION. Floating point values, exact arithmetic, rounding and the flags and exceptions of an FP instruction
(`spec/44_floating_point.md` R281 to R294). What the spec takes from IEEE Std 754-2008 it marks as general knowledge;
here PRESUMED (log 16). -/
namespace Sys2Proof.Machine

/-! ### Formats and values -/

/-- The exponent bias of a format (R281). -/
def fpBias (f : FpFormat) : Int := 2 ^ (f.expBits - 1) - 1

/-- The exponent of the last mantissa bit of the smallest numbers of a format (R281). -/
def fpMinExp (f : FpFormat) : Int := 1 - fpBias f - f.manBits

/-- The format of the width a mode names, H, W, D, Q or 1 (R281, R315); the other modes name none and the decoder
rejects them. -/
def modeFormat : MMode → FpFormat
  | .half => ⟨5, 10⟩
  | .word => ⟨8, 23⟩
  | .dword => ⟨11, 52⟩
  | .quad => ⟨15, 112⟩
  | .sent => ⟨19, 236⟩
  | .byte => ⟨5, 10⟩
  | .dsent => ⟨19, 236⟩
  | .qsent => ⟨19, 236⟩

/-- The value of an FP number: `finite neg sig exp` is `sig * 2^exp` with its sign, `sig` not 0 (R286). -/
inductive FpVal where
  | zero (neg : Bool)
  | finite (neg : Bool) (sig : Nat) (exp : Int)
  | infinite (neg : Bool)
  | nan (signaling : Bool)
deriving DecidableEq, Repr

/-- The sign bit of a bit pattern. -/
def fpSign (f : FpFormat) (v : Nat) : Bool := v / 2 ^ (f.expBits + f.manBits) % 2 == 1

/-- The exponent field of a bit pattern. -/
def fpExpField (f : FpFormat) (v : Nat) : Nat := v / 2 ^ f.manBits % 2 ^ f.expBits

/-- The mantissa field of a bit pattern. -/
def fpManField (f : FpFormat) (v : Nat) : Nat := v % 2 ^ f.manBits

/-- The class and value of a bit pattern (R286). -/
def unpack (f : FpFormat) (v : Nat) : FpVal :=
  let ef := fpExpField f v
  let mf := fpManField f v
  if ef = 2 ^ f.expBits - 1 then
    (if mf = 0 then .infinite (fpSign f v) else .nan (mf / 2 ^ (f.manBits - 1) % 2 == 0))
  else if ef = 0 then
    (if mf = 0 then .zero (fpSign f v) else .finite (fpSign f v) mf (fpMinExp f))
  else .finite (fpSign f v) (2 ^ f.manBits + mf) (fpMinExp f + ((ef : Int) - 1))

/-- A denormalized pattern: exponent field all 0, mantissa not 0 (R286). -/
def isDenormal (f : FpFormat) (v : Nat) : Bool := fpExpField f v == 0 && fpManField f v != 0

/-- The pattern of a sign bit alone. -/
def signPattern (f : FpFormat) (neg : Bool) : Nat := neg.toNat * 2 ^ (f.expBits + f.manBits)

/-- The pattern of an infinity (R286). -/
def infPattern (f : FpFormat) (neg : Bool) : Nat := signPattern f neg + (2 ^ f.expBits - 1) * 2 ^ f.manBits

/-- QNAN (R286, D27). -/
def quietNan (f : FpFormat) : Nat := infPattern f false + 2 ^ (f.manBits - 1)

/-- MAXF, the largest finite number of a format, with a sign (R293). -/
def maxFinite (f : FpFormat) (neg : Bool) : Nat := infPattern f neg - 1

def FpVal.isNan : FpVal → Bool
  | .nan _ => true
  | _ => false

def FpVal.isSignaling : FpVal → Bool
  | .nan sig => sig
  | _ => false

def FpVal.isZero : FpVal → Bool
  | .zero _ => true
  | _ => false

def FpVal.isInfinite : FpVal → Bool
  | .infinite _ => true
  | _ => false

/-! ### Rounding (R284) -/

/-- The rounding mode FP ROUNDING MODE, UCR[11:8], selects (R59, R284); the unassigned codes are free (U8). -/
def State.roundingMode (s : State) : RoundingMode :=
  match s.ucr.toNat / 256 % 16 with
  | 0 => .nearestEven
  | 1 => .nearestOdd
  | 2 => .nearestAway
  | 3 => .nearestPositive
  | 4 => .nearestNegative
  | 5 => .nearestZero
  | 10 => .zeroAway
  | 11 => .positive
  | 12 => .negative
  | 13 => .toZero
  | code => Config.roundingOfUnassigned (BitVec.ofNat 4 code)

/-- How the part that rounding drops compares with half a unit. -/
inductive Dropped where
  | nothing | belowHalf | half | aboveHalf
deriving DecidableEq, Repr

/-- The dropped part of a number whose low `k` bits are `rem`, with something below them when `sticky`. -/
def droppedPart (rem k : Nat) (sticky : Bool) : Dropped :=
  if rem = 0 ∧ sticky = false then .nothing
  else if 2 * rem < 2 ^ k then .belowHalf
  else if 2 * rem = 2 ^ k ∧ sticky = false then .half
  else .aboveHalf

/-- Whether the neighbour of larger magnitude is taken (R284). -/
def roundsAway (mode : RoundingMode) (neg odd : Bool) (p : Dropped) : Bool :=
  match p with
  | .nothing => false
  | .belowHalf =>
    match mode with
    | .zeroAway => true
    | .positive => !neg
    | .negative => neg
    | _ => false
  | .half =>
    match mode with
    | .nearestEven => odd
    | .nearestOdd => !odd
    | .nearestAway => true
    | .nearestPositive => !neg
    | .nearestNegative => neg
    | .nearestZero => false
    | .zeroAway => true
    | .positive => !neg
    | .negative => neg
    | .toZero => false
  | .aboveHalf =>
    match mode with
    | .positive => !neg
    | .negative => neg
    | .toZero => false
    | _ => true

/-- `sig * 2^exp` (and a little more when `sticky`) rounded to a multiple of `2^e`: the multiple, and whether it is
inexact. -/
def roundAt (mode : RoundingMode) (neg : Bool) (sig : Nat) (exp : Int) (sticky : Bool) (e : Int) : Nat × Bool :=
  let k := (e - exp).toNat
  let scaled := sig * 2 ^ (exp - e).toNat
  let p := droppedPart (scaled % 2 ^ k) k sticky
  let q := scaled / 2 ^ k
  (q + (roundsAway mode neg (q % 2 == 1) p).toNat, p != .nothing)

/-- A result in a format, with what rounding it told (R288). -/
structure Rounded where
  bits : Nat
  overflow : Bool := false
  tiny : Bool := false
  inexact : Bool := false
deriving DecidableEq, Repr

/-- The result of an overflow by rounding mode (R293). -/
def overflowPattern (f : FpFormat) (mode : RoundingMode) (neg : Bool) : Nat :=
  match mode with
  | .positive => if neg then maxFinite f true else infPattern f false
  | .negative => if neg then infPattern f true else maxFinite f false
  | .toZero => maxFinite f neg
  | _ => infPattern f neg

/-- A non-zero exact result rounded to a format (R284, R288, R293). Overflow and tininess are judged on the result
rounded with unbounded exponent (D30). -/
def roundFinite (f : FpFormat) (mode : RoundingMode) (neg : Bool) (sig : Nat) (exp : Int) (sticky : Bool) : Rounded :=
  let p := f.manBits + 1
  let eu : Int := exp + (Nat.log2 sig : Int) + 1 - p
  let qu := (roundAt mode neg sig exp sticky eu).1
  let top : Int := eu + (if qu = 2 ^ p then (p : Int) else p - 1)
  let e := max eu (fpMinExp f)
  let r := roundAt mode neg sig exp sticky e
  if fpBias f < top then
    { bits := overflowPattern f mode neg, overflow := true, inexact := true }
  else
    { bits := signPattern f neg + (e - fpMinExp f).toNat * 2 ^ f.manBits + r.1
      tiny := decide (top < 1 - fpBias f)
      inexact := r.2 }

/-- A value rounded to a format; a NaN result is QNAN (R292, D27). -/
def roundTo (f : FpFormat) (mode : RoundingMode) (v : FpVal) (sticky : Bool) : Rounded :=
  match v with
  | .zero neg => { bits := signPattern f neg }
  | .infinite neg => { bits := infPattern f neg }
  | .nan _ => { bits := quietNan f }
  | .finite neg sig exp => roundFinite f mode neg sig exp sticky

/-! ### Exact arithmetic; `none` is an invalid operation (R289) -/

/-- A signed integer times a power of two as a value; `zeroNeg` is the sign of an exact zero. -/
def ofSigned (r : Int) (exp : Int) (zeroNeg : Bool) : FpVal :=
  if r = 0 then .zero zeroNeg else .finite (decide (r < 0)) r.natAbs exp

/-- The significand with its sign at a lower exponent. -/
def signedAt (neg : Bool) (sig : Nat) (exp e : Int) : Int :=
  let v : Int := (sig * 2 ^ (exp - e).toNat : Nat)
  if neg then -v else v

/-- The sum of two values; an exact zero is +0 but in mode Negative infinity (R300). -/
def fpAdd (mode : RoundingMode) : FpVal → FpVal → Option FpVal
  | .nan _, _ => none
  | _, .nan _ => none
  | .infinite x, .infinite y => if x = y then some (.infinite x) else none
  | .infinite x, _ => some (.infinite x)
  | _, .infinite y => some (.infinite y)
  | .zero x, .zero y => some (.zero (if x = y then x else mode == .negative))
  | .zero _, b => some b
  | a, .zero _ => some a
  | .finite x sx ex, .finite y sy ey =>
    let e := min ex ey
    some (ofSigned (signedAt x sx ex e + signedAt y sy ey e) e (mode == .negative))

/-- The value with its sign inverted. -/
def fpNegate : FpVal → FpVal
  | .zero x => .zero (!x)
  | .infinite x => .infinite (!x)
  | .finite x s e => .finite (!x) s e
  | .nan q => .nan q

/-- The product of two values (R302). -/
def fpMul : FpVal → FpVal → Option FpVal
  | .nan _, _ => none
  | _, .nan _ => none
  | .infinite _, .zero _ => none
  | .zero _, .infinite _ => none
  | .infinite x, .infinite y => some (.infinite (x != y))
  | .infinite x, .finite y _ _ => some (.infinite (x != y))
  | .finite x _ _, .infinite y => some (.infinite (x != y))
  | .zero x, .zero y => some (.zero (x != y))
  | .zero x, .finite y _ _ => some (.zero (x != y))
  | .finite x _ _, .zero y => some (.zero (x != y))
  | .finite x sx ex, .finite y sy ey => some (.finite (x != y) (sx * sy) (ex + ey))

/-- What FDIV comes to before rounding (R303): the value, whether bits below it were dropped, and whether it is a
division of a finite non-zero number by zero. -/
structure Quotient where
  value : FpVal
  sticky : Bool := false
  byZero : Bool := false
deriving DecidableEq, Repr

/-- The quotient of two values to a format's precision and two bits more (R303). -/
def fpDiv (f : FpFormat) : FpVal → FpVal → Option Quotient
  | .nan _, _ => none
  | _, .nan _ => none
  | .infinite _, .infinite _ => none
  | .zero _, .zero _ => none
  | .infinite x, .zero y => some { value := .infinite (x != y) }
  | .infinite x, .finite y _ _ => some { value := .infinite (x != y) }
  | .zero x, .infinite y => some { value := .zero (x != y) }
  | .finite x _ _, .infinite y => some { value := .zero (x != y) }
  | .zero x, .finite y _ _ => some { value := .zero (x != y) }
  | .finite x _ _, .zero y => some { value := .infinite (x != y), byZero := true }
  | .finite x sx ex, .finite y sy ey =>
    let k := f.manBits + 3 + Nat.log2 sy + 1
    some { value := .finite (x != y) (sx * 2 ^ k / sy) (ex - ey - k), sticky := sx * 2 ^ k % sy != 0 }

/-- The integer nearest to `a / b`, the even one on a tie (R304). -/
def nearestQuotient (a b : Nat) : Nat :=
  let q := a / b
  let r := a % b
  if 2 * r < b then q else if b < 2 * r then q + 1 else q + q % 2

/-- The remainder of R304, exact; a zero result has the sign of the first operand. -/
def fpRem : FpVal → FpVal → Option FpVal
  | .nan _, _ => none
  | _, .nan _ => none
  | .infinite _, _ => none
  | _, .zero _ => none
  | a, .infinite _ => some a
  | .zero x, .finite _ _ _ => some (.zero x)
  | .finite x sx ex, .finite _ sy ey =>
    let e := min ex ey
    let a := sx * 2 ^ (ex - e).toNat
    let b := sy * 2 ^ (ey - e).toNat
    let r : Int := (a : Int) - (b * nearestQuotient a b : Nat)
    some (ofSigned (if x then -r else r) e x)

/-- The integer square root, from bit `k - 1` down, above a root `r` already found. -/
def sqrtFrom (n : Nat) : Nat → Nat → Nat
  | 0, r => r
  | k + 1, r => sqrtFrom n k (if (r + 2 ^ k) * (r + 2 ^ k) ≤ n then r + 2 ^ k else r)

/-- The largest integer whose square is at most `n`. -/
def natSqrt (n : Nat) : Nat := sqrtFrom n (Nat.log2 n / 2 + 1) 0

/-- The square root of a value to a format's precision and two bits more (R306): the value and whether bits below it
were dropped. A quiet NaN stays a NaN. -/
def fpSqrt (f : FpFormat) : FpVal → Option (FpVal × Bool)
  | .nan sig => if sig then none else some (.nan false, false)
  | .zero x => some (.zero x, false)
  | .infinite x => if x then none else some (.infinite false, false)
  | .finite x s e =>
    if x then none
    else
      let odd := (e % 2).toNat
      let n := s * 2 ^ odd * 4 ^ (f.manBits + 3)
      let r := natSqrt n
      some (.finite false r ((e - odd) / 2 - (f.manBits + 3 : Nat)), r * r != n)

/-- roundint() (R309): the value rounded to an integer, and whether it is inexact. -/
def fpRoundInt (mode : RoundingMode) : FpVal → FpVal × Bool
  | .finite x s e =>
    if 0 ≤ e then (.finite x s e, false)
    else
      let r := roundAt mode x s e false 0
      (if r.1 = 0 then .zero x else .finite x r.1 0, r.2)
  | v => (v, false)

/-- int() (R310): the integer of a finite value, and whether it is inexact; none for an infinity or a NaN. -/
def fpToInt (mode : RoundingMode) : FpVal → Option (Int × Bool)
  | .zero _ => some (0, false)
  | .finite x s e =>
    let r := roundAt mode x s e false 0
    some (if x then -(r.1 : Int) else (r.1 : Int), r.2)
  | .infinite _ => none
  | .nan _ => none

/-- The comparison of two values: by value, the zeros equal, none with a NaN (R291). -/
def fpCompare : FpVal → FpVal → Option Ordering
  | .nan _, _ => none
  | _, .nan _ => none
  | .infinite x, .infinite y => some (if x = y then .eq else if x then .lt else .gt)
  | .infinite x, _ => some (if x then .lt else .gt)
  | _, .infinite y => some (if y then .gt else .lt)
  | .zero _, .zero _ => some .eq
  | .zero _, .finite y _ _ => some (if y then .gt else .lt)
  | .finite x _ _, .zero _ => some (if x then .lt else .gt)
  | .finite x sx ex, .finite y sy ey =>
    let e := min ex ey
    some (compare (signedAt x sx ex e) (signedAt y sy ey e))

/-! ### Exceptions and flags (R288 to R294) -/

/-- What an FP instruction found: its exceptions' conditions, its comparison and its result. -/
structure FpWork where
  invalid : Bool := false
  denormalOperand : Bool := false
  divisionByZero : Bool := false
  zeroDivisor : Bool := false
  compare : Option Ordering := none
  result : Rounded
deriving DecidableEq, Repr

/-- Numbers 13 to 15 of a rounded result (R290): FP INEXACT RESULT joins an overflow or an underflow only where that one
is impotent. -/
def State.roundingRaised (s : State) (r : Rounded) : List Exc :=
  if r.overflow then .fpOverflow :: (if s.potent .fpOverflow then [] else [.fpInexactResult])
  else (if r.tiny then [.fpUnderflow] else [])
    ++ (if r.inexact && !(r.tiny && s.potent .fpUnderflow) then [.fpInexactResult] else [])

/-- The set S of R294. -/
def State.fpRaised (s : State) (k : FpWork) : List Exc :=
  (if k.invalid then [.fpInvalidOperation] else [])
    ++ (if k.denormalOperand then [.fpDenormalizedOperand] else [])
    ++ (if k.invalid then []
        else if k.divisionByZero then [.fpDivisionByZero]
        else s.roundingRaised k.result)

/-- FpEST (R291) for a result in format `f`. -/
def fpFlags (f : FpFormat) (k : FpWork) (raised : List Exc) : BitVec 16 :=
  let v := unpack f k.result.bits
  EstFlags.bits
    { invalid := k.invalid
      divisionByZero := k.zeroDivisor
      overflow := raised.contains .fpOverflow
      underflow := raised.contains .fpUnderflow && k.result.inexact
      equal := k.compare == some .eq
      greater := k.compare == some .gt
      less := k.compare == some .lt
      inexact := raised.contains .fpInexactResult
      sign := fpSign f k.result.bits
      zero := v.isZero
      denormalized := k.denormalOperand || isDenormal f k.result.bits
      infinity := v.isInfinite
      signalingNan := v.isSignaling
      nan := v.isNan }

/-- An FP instruction whose result is an FP number in format `f`: R290 with the write of R283. -/
def finishFp (f : FpFormat) (d : Nat) (k : FpWork) (s : State) : State :=
  s.complete (s.fpRaised k) (fpFlags f k (s.fpRaised k)) (s.writeFp d (BitVec.ofNat f.width k.result.bits))

end Sys2Proof.Machine
end

