-- ==== Sys2Proof/Machine/Float.lean ====
section
/-! DEFINITION. The floating point instructions (`spec/44_floating_point.md` R300 to R319) and FMAD, FMSU
(`spec/45_fused_mul.md` R337, R338). -/
namespace Sys2Proof.Machine

/-- An FP operand in the FP format (R283). -/
def State.fpOperand (s : State) (n : Nat) : Nat := (s.readFp n s.cfg.fp.width).toNat

/-- The value of an FP operand (R286). -/
def State.fpValue (s : State) (n : Nat) : FpVal := unpack s.cfg.fp (s.fpOperand n)

/-- An FP operand is denormalized (R288). -/
def State.fpDenormal (s : State) (n : Nat) : Bool := isDenormal s.cfg.fp (s.fpOperand n)

/-- A result without rounding bits dropped, or an invalid operation, whose result is QNAN (R292). -/
def fpOutcome (s : State) (v : Option FpVal) (sticky : Bool) : Rounded :=
  match v with
  | none => { bits := quietNan s.cfg.fp }
  | some x => roundTo s.cfg.fp s.roundingMode x sticky

/-- What FADD, FSUB and FMUL come to, with the exact result `v`. -/
def twoOperandWork (s : State) (d r : Nat) (v : Option FpVal) : FpWork :=
  { invalid := v.isNone
    denormalOperand := s.fpDenormal d || s.fpDenormal r
    compare := fpCompare (s.fpValue d) (s.fpValue r)
    result := fpOutcome s v false }

/-- FADD, FSUB and FMUL behind their checks. -/
def runFp2 (d r : Nat) (v : Option FpVal) (s : State) : State :=
  s.guarded true (s.fpChecks true s.cfg.fp.width [d, r]) (finishFp s.cfg.fp d (twoOperandWork s d r v) s)

/-- What FDIV comes to (R303, R291 bit 2). -/
def divWork (s : State) (d r : Nat) : FpWork :=
  let q := fpDiv s.cfg.fp (s.fpValue d) (s.fpValue r)
  { invalid := q.isNone
    denormalOperand := s.fpDenormal d || s.fpDenormal r
    divisionByZero := q.any Quotient.byZero
    zeroDivisor := (s.fpValue r).isZero
    compare := fpCompare (s.fpValue d) (s.fpValue r)
    result := fpOutcome s (q.map Quotient.value) (q.any Quotient.sticky) }

/-- What FREM comes to (R304): always exact, so no rounding exception. -/
def remWork (s : State) (d r : Nat) : FpWork :=
  let v := fpRem (s.fpValue d) (s.fpValue r)
  { invalid := v.isNone
    denormalOperand := s.fpDenormal d || s.fpDenormal r
    compare := fpCompare (s.fpValue d) (s.fpValue r)
    result := { bits := (fpOutcome s v false).bits } }

/-- FpEST of FCMP (R291, R305). -/
def compareFlags (s : State) (d r : Nat) : BitVec 16 :=
  let a := s.fpValue d
  let b := s.fpValue r
  EstFlags.bits
    { invalid := a.isSignaling || b.isSignaling
      equal := fpCompare a b == some .eq
      greater := fpCompare a b == some .gt
      less := fpCompare a b == some .lt
      unordered := a.isNan || b.isNan
      denormalized := s.fpDenormal d || s.fpDenormal r
      signalingNan := a.isSignaling || b.isSignaling
      nan := a.isNan || b.isNan }

/-- The exceptions FCMP raises (R305). -/
def compareRaised (s : State) (d r : Nat) : List Exc :=
  (if (s.fpValue d).isSignaling || (s.fpValue r).isSignaling then [.fpInvalidOperation] else [])
    ++ (if s.fpDenormal d || s.fpDenormal r then [.fpDenormalizedOperand] else [])

/-- What a one-operand instruction comes to, with its result. -/
def oneOperandWork (s : State) (d : Nat) (invalid : Bool) (result : Rounded) : FpWork :=
  { invalid := invalid, denormalOperand := s.fpDenormal d, result := result }

/-- A one-operand FP instruction behind its checks. -/
def runFp1 (d : Nat) (invalid : Bool) (result : Rounded) (s : State) : State :=
  s.guarded true (s.fpChecks true s.cfg.fp.width [d]) (finishFp s.cfg.fp d (oneOperandWork s d invalid result) s)

/-- FABS and FNEG (R307, R308): the operand with another sign bit; QNAN for a signaling NaN. -/
def withSign (s : State) (d : Nat) (neg : Bool) : Rounded :=
  if (s.fpValue d).isSignaling then { bits := quietNan s.cfg.fp }
  else
    { bits := signPattern s.cfg.fp neg
        + s.fpOperand d % 2 ^ (s.cfg.fp.expBits + s.cfg.fp.manBits) }

/-- FRND's result (R309). DESIGN CHOICE (log 47): in a format whose integers reach above its largest finite number,
where the rule's "cannot occur" fails, an integer above that number overflows as R288 and R293 say of every result. -/
def roundIntResult (s : State) (d : Nat) : Rounded :=
  let whole := fpRoundInt s.roundingMode (s.fpValue d)
  let r := roundTo s.cfg.fp s.roundingMode whole.1 false
  { bits := r.bits, overflow := r.overflow, inexact := whole.2 }

/-! ### Integer conversions: which file holds the integer (N20, log 18) -/

/-- The integer of FF2I and FI2F is an FPR register. -/
def State.intInFpr (s : State) : Bool := s.cfg.hasFpr && s.cfg.intSideInFpr

/-- The file of the integer side. -/
def State.intFile (s : State) : List RegBits := if s.intInFpr then s.fpr else s.gpr

/-- The visible width of the integer side's registers. -/
def State.intPart (s : State) : Nat := if s.intInFpr then s.cfg.fprWidth else s.vw

/-- Rd of the integer side. -/
def State.readInt (s : State) (n w : Nat) : BitVec w := readFile s.intFile s.intPart n w

/-- Wr of the integer side. -/
def State.writeInt (s : State) (n : Nat) {w : Nat} (v : BitVec w) : State :=
  if s.intInFpr then s.writeFpr n v else s.writeGpr n v

/-- The checks of FF2I and FI2F (R287): DESTINATION names a register of both files. -/
def State.convertChecks (s : State) (m : MMode) (d : Nat) : List (Bool × Exc) :=
  [(!s.hasFpu || !s.hasMode m || s.lacks || !accessFits s.fpFile s.fpPart s.cfg.fp.width
      || !accessFits s.intFile s.intPart m.width, .unimplementedInstruction),
   (missing s.fpFile d || missing s.intFile d, .unimplementedRegister)]

/-- The integer FF2I writes; none when the operation is invalid: a NaN, an infinity, or an integer out of range
(R310). -/
def convertedInt (s : State) (m : MMode) (u : Bool) (d : Nat) : Option (Int × Bool) :=
  match fpToInt s.roundingMode (s.fpValue d) with
  | none => none
  | some (n, inexact) =>
    if u then (if 0 ≤ n ∧ n ≤ 2 ^ m.width - 1 then some (n, inexact) else none)
    else if -(2 ^ (m.width - 1)) ≤ n ∧ n ≤ 2 ^ (m.width - 1) - 1 then some (n, inexact) else none

/-- FF2I behind its checks (R310): an impotent FP INVALID OPERATION keeps the destination and leaves EST[15:0] = 1. -/
def runFf2i (m : MMode) (u : Bool) (d : Nat) (s : State) : State :=
  let denormal := if s.fpDenormal d then [Exc.fpDenormalizedOperand] else []
  s.guarded true (s.convertChecks m d)
    (match convertedInt s m u d with
     | none => s.complete (.fpInvalidOperation :: denormal) (EstFlags.bits { invalid := true }) s
     | some (n, inexact) =>
       let res := BitVec.ofInt m.width n
       s.complete (denormal ++ if inexact then [.fpInexactResult] else [])
         (EstFlags.bits
           { inexact := inexact, sign := res.msb, zero := res == 0, denormalized := s.fpDenormal d })
         (s.writeInt d res))

/-- FI2F behind its checks (R311). -/
def runFi2f (m : MMode) (u : Bool) (d : Nat) (s : State) : State :=
  let x := intValue u (s.readInt d m.width)
  s.guarded true (s.convertChecks m d)
    (finishFp s.cfg.fp d { result := roundTo s.cfg.fp s.roundingMode (ofSigned x 0 false) false } s)

/-! ### Format conversions (R315) -/

/-- The FPU converts the format of mode `m` (R315). -/
def State.convertsFormat (s : State) (m : MMode) : Bool :=
  s.cfg.fpFormats.contains m && decide (m.width ≤ s.cfg.fp.width)

/-- FEXT behind its checks (R316): never rounds. -/
def runFext (m : MMode) (d : Nat) (s : State) : State :=
  let f := modeFormat m
  let a := (s.readFp d m.width).toNat
  let v := unpack f a
  s.guarded true (s.fpChecks (s.convertsFormat m) s.cfg.fp.width [d])
    (finishFp s.cfg.fp d
      { invalid := v.isSignaling
        denormalOperand := isDenormal f a
        result := { bits := (roundTo s.cfg.fp s.roundingMode v false).bits } } s)

/-- FSQZ behind its checks (R319): only the low W2 bits are written. -/
def runFsqz (m : MMode) (d : Nat) (s : State) : State :=
  s.guarded true (s.fpChecks (s.convertsFormat m) s.cfg.fp.width [d])
    (finishFp (modeFormat m) d
      { invalid := (s.fpValue d).isSignaling
        denormalOperand := s.fpDenormal d
        result := roundTo (modeFormat m) s.roundingMode (s.fpValue d) false } s)

/-! ### FMAD and FMSU (R337, R338) -/

/-- FMAD and FMSU behind their checks: exact product and sum, one rounding. -/
def runFpFused (d r t : Nat) (third : FpVal) (s : State) : State :=
  let v := match fpMul (s.fpValue d) (s.fpValue r) with
    | none => none
    | some p => fpAdd s.roundingMode p third
  s.guarded true (s.fpChecks true s.cfg.fp.width [d, r, t])
    (finishFp s.cfg.fp d
      { invalid := v.isNone
        denormalOperand := s.fpDenormal d || s.fpDenormal r || s.fpDenormal t
        compare := fpCompare (s.fpValue d) (s.fpValue r)
        result := fpOutcome s v false } s)

/-! ### The instructions -/

/-- FADD (R300). -/
def execFadd (d r : Nat) (s : State) : Result :=
  .next (runFp2 d r (fpAdd s.roundingMode (s.fpValue d) (s.fpValue r)) s)

/-- FSUB (R301). -/
def execFsub (d r : Nat) (s : State) : Result :=
  .next (runFp2 d r (fpAdd s.roundingMode (s.fpValue d) (fpNegate (s.fpValue r))) s)

/-- FMUL (R302). -/
def execFmul (d r : Nat) (s : State) : Result :=
  .next (runFp2 d r (fpMul (s.fpValue d) (s.fpValue r)) s)

/-- FDIV (R303). -/
def execFdiv (d r : Nat) (s : State) : Result :=
  .next (s.guarded true (s.fpChecks true s.cfg.fp.width [d, r]) (finishFp s.cfg.fp d (divWork s d r) s))

/-- FREM (R304). -/
def execFrem (d r : Nat) (s : State) : Result :=
  .next (s.guarded true (s.fpChecks true s.cfg.fp.width [d, r]) (finishFp s.cfg.fp d (remWork s d r) s))

/-- FCMP (R305). -/
def execFcmp (d r : Nat) (s : State) : Result :=
  .next (s.guarded true (s.fpChecks true (max s.cfg.fp.width 16) [d, r])
    (s.complete (compareRaised s d r) (compareFlags s d r) (s.writeFp d (compareFlags s d r))))

/-- FSQR (R306). -/
def execFsqr (d : Nat) (s : State) : Result :=
  .next (runFp1 d (fpSqrt s.cfg.fp (s.fpValue d)).isNone
    (fpOutcome s ((fpSqrt s.cfg.fp (s.fpValue d)).map Prod.fst) ((fpSqrt s.cfg.fp (s.fpValue d)).any Prod.snd)) s)

/-- FABS (R307). -/
def execFabs (d : Nat) (s : State) : Result :=
  .next (runFp1 d (s.fpValue d).isSignaling (withSign s d false) s)

/-- FNEG (R308). -/
def execFneg (d : Nat) (s : State) : Result :=
  .next (runFp1 d (s.fpValue d).isSignaling (withSign s d (!fpSign s.cfg.fp (s.fpOperand d))) s)

/-- FRND (R309). -/
def execFrnd (d : Nat) (s : State) : Result :=
  .next (runFp1 d (s.fpValue d).isSignaling (roundIntResult s d) s)

/-- FF2I (R310). -/
def execFf2i (m : MMode) (u : Bool) (d : Nat) (s : State) : Result :=
  .next (runFf2i m u d s)

/-- FI2F (R311). -/
def execFi2f (m : MMode) (u : Bool) (d : Nat) (s : State) : Result :=
  .next (runFi2f m u d s)

/-- FEXT_H (R316). -/
def execFextH (d : Nat) (s : State) : Result :=
  .next (runFext .half d s)

/-- FEXT_W (R316). -/
def execFextW (d : Nat) (s : State) : Result :=
  .next (runFext .word d s)

/-- FEXT_D (R316). -/
def execFextD (d : Nat) (s : State) : Result :=
  .next (runFext .dword d s)

/-- FEXT_Q (R316). -/
def execFextQ (d : Nat) (s : State) : Result :=
  .next (runFext .quad d s)

/-- FEXT_1 (R316). -/
def execFext1 (d : Nat) (s : State) : Result :=
  .next (runFext .sent d s)

/-- FSQZ_H (R319). -/
def execFsqzH (d : Nat) (s : State) : Result :=
  .next (runFsqz .half d s)

/-- FSQZ_W (R319). -/
def execFsqzW (d : Nat) (s : State) : Result :=
  .next (runFsqz .word d s)

/-- FSQZ_D (R319). -/
def execFsqzD (d : Nat) (s : State) : Result :=
  .next (runFsqz .dword d s)

/-- FSQZ_Q (R319). -/
def execFsqzQ (d : Nat) (s : State) : Result :=
  .next (runFsqz .quad d s)

/-- FSQZ_1 (R319). -/
def execFsqz1 (d : Nat) (s : State) : Result :=
  .next (runFsqz .sent d s)

/-- FMAD (R337). -/
def execFmad (d r t : Nat) (s : State) : Result :=
  .next (runFpFused d r t (s.fpValue t) s)

/-- FMSU (R338). -/
def execFmsu (d r t : Nat) (s : State) : Result :=
  .next (runFpFused d r t (fpNegate (s.fpValue t)) s)

end Sys2Proof.Machine
end

