-- ==== Sys2Proof/Machine/Integer.lean ====
section
/-! DEFINITION. ADD, SUB, MUL, DIV (`spec/41_integer_arith.md`) and MAD, MSU (`spec/45_fused_mul.md`). -/
namespace Sys2Proof.Machine

/-- MAXINT(U, W) (R206). -/
def maxInt (u : Bool) (w : Nat) : BitVec w := if u then BitVec.allOnes w else BitVec.ofNat w (2 ^ (w - 1) - 1)

/-- The exact result is representable at width `w`, signed for U = 0 and unsigned for U = 1 (R203, R204). -/
def representable (u : Bool) (w : Nat) (r : Int) : Bool :=
  if u then decide (0 ≤ r ∧ r ≤ 2 ^ w - 1) else decide (-(2 ^ (w - 1)) ≤ r ∧ r ≤ 2 ^ (w - 1) - 1)

/-- The value ADD and SUB write for an exact result: MAXINT where it is not representable (R203, R204, R206, D22). -/
def saturated (u : Bool) (w : Nat) (r : Int) : BitVec w :=
  if representable u w r then BitVec.ofInt w r else maxInt u w

/-- ADD and SUB after their checks, with the exact result `r` (R203, R204, R213). -/
def runAddSub (m : MMode) (u : Bool) (d : Nat) (op1 op2 : BitVec m.width) (r : Int) (s : State) : State :=
  s.complete (if representable u m.width r then [] else [.overflow])
    (intFlags u op1 op2 (saturated u m.width r) (!representable u m.width r) false)
    (s.writeGpr d (saturated u m.width r))

/-- ADD with its second operand fetched (R201 to R203). -/
def runAdd (m : MMode) (u : Bool) (d : Nat) (regs : List Nat) (op2 : BitVec m.width) (s : State) : State :=
  let op1 := s.readGpr d m.width
  s.guarded true (s.gprChecks (s.hasMode m) m.width regs)
    (runAddSub m u d op1 op2 (intValue u op1 + intValue u op2) s)

/-- SUB with its second operand fetched (R201, R202, R204). -/
def runSub (m : MMode) (u : Bool) (d : Nat) (regs : List Nat) (op2 : BitVec m.width) (s : State) : State :=
  let op1 := s.readGpr d m.width
  s.guarded true (s.gprChecks (s.hasMode m) m.width regs)
    (runAddSub m u d op1 op2 (intValue u op1 - intValue u op2) s)

/-- MUL with its second operand fetched: the whole product, 2W bits (R207). -/
def runMul (m : MMode) (u : Bool) (d : Nat) (regs : List Nat) (op2 : BitVec m.width) (s : State) : State :=
  let op1 := s.readGpr d m.width
  let res := BitVec.ofInt (2 * m.width) (intValue u op1 * intValue u op2)
  s.guarded true (s.gprChecks (s.hasMode m && s.cfg.hasMul) (2 * m.width) regs)
    (s.complete [] (intFlags u op1 op2 res false false) (s.writeGpr d res))

/-- subseq(d): the register after the ones the quotient takes (R209). -/
def State.subsequent (s : State) (d w : Nat) : Nat := (d + max 1 (w / s.vw)) % s.gpr.length

/-- Signed division of the least number by -1, the one overflow of DIV (R208). -/
def divOverflows (u : Bool) (w : Nat) (a b : Int) : Bool := !u && decide (a = -(2 ^ (w - 1)) ∧ b = -1)

/-- The quotient DIV writes: MAXINT on division by zero and on overflow, else rounded toward zero (R208, R211). -/
def divQuotient (u : Bool) (w : Nat) (a b : Int) : BitVec w :=
  if b = 0 then maxInt u w else if divOverflows u w a b then maxInt u w else BitVec.ofInt w (a.tdiv b)

/-- The remainder DIV writes: 0 on division by zero and on overflow, else with the dividend's sign (R208, R211). -/
def divRemainder (u : Bool) (w : Nat) (a b : Int) : BitVec w :=
  if b = 0 then 0 else if divOverflows u w a b then 0 else BitVec.ofInt w (a.tmod b)

/-- The exception DIV raises, at most one (R208, R409). -/
def divRaised (u : Bool) (w : Nat) (a b : Int) : List Exc :=
  if b = 0 then [.divisionByZero] else if divOverflows u w a b then [.overflow] else []

/-- DIV with its second operand fetched: quotient at `d`, remainder at subseq(d) (R208 to R212). -/
def runDiv (m : MMode) (u : Bool) (d : Nat) (regs : List Nat) (op2 : BitVec m.width) (s : State) : State :=
  let op1 := s.readGpr d m.width
  let a := intValue u op1
  let b := intValue u op2
  let q := divQuotient u m.width a b
  s.guarded true (s.gprChecks (s.hasMode m && s.cfg.hasDiv) m.width regs)
    (s.complete (divRaised u m.width a b)
      (intFlags u op1 op2 q (decide (b ≠ 0) && divOverflows u m.width a b) (decide (b = 0)))
      ((s.writeGpr d q).writeGpr (s.subsequent d m.width) (divRemainder u m.width a b)))

/-- MAD and MSU after their operands are fetched, with the exact result `r`: its low 2W bits (R331, R335, R336). -/
def runFused (m : MMode) (u : Bool) (d : Nat) (regs : List Nat) (op1 op2 : BitVec m.width) (r : Int) (s : State) :
    State :=
  let res := BitVec.ofInt (2 * m.width) r
  s.guarded true (s.gprChecks (s.hasMode m && s.cfg.hasMul) (2 * m.width) regs)
    (s.complete [] (intFlags u op1 op2 res false false) (s.writeGpr d res))

/-- MAD (R335). -/
def runMad (m : MMode) (u : Bool) (d r : Nat) (regs : List Nat) (op3 : BitVec m.width) (s : State) : State :=
  let op1 := s.readGpr d m.width
  let op2 := s.readGpr r m.width
  runFused m u d regs op1 op2 (intValue u op1 * intValue u op2 + intValue u op3) s

/-- MSU (R336). -/
def runMsu (m : MMode) (u : Bool) (d r : Nat) (regs : List Nat) (op3 : BitVec m.width) (s : State) : State :=
  let op1 := s.readGpr d m.width
  let op2 := s.readGpr r m.width
  runFused m u d regs op1 op2 (intValue u op1 * intValue u op2 - intValue u op3) s

/-! ### The instructions -/

/-- ADD, register (R203). -/
def execAddReg (m : MMode) (u : Bool) (d r : Nat) (s : State) : Result :=
  .next (runAdd m u d [d, r] (s.readGpr r m.width) s)

/-- ADD, immediate14 (R203). -/
def execAddImm (m : MMode) (u : Bool) (d : Nat) (imm : BitVec 14) (s : State) : Result :=
  .next (runAdd m u d [d] (extendImm u imm m.width) s)

/-- SUB, register (R204). -/
def execSubReg (m : MMode) (u : Bool) (d r : Nat) (s : State) : Result :=
  .next (runSub m u d [d, r] (s.readGpr r m.width) s)

/-- SUB, immediate14 (R204). -/
def execSubImm (m : MMode) (u : Bool) (d : Nat) (imm : BitVec 14) (s : State) : Result :=
  .next (runSub m u d [d] (extendImm u imm m.width) s)

/-- MUL, register (R207). -/
def execMulReg (m : MMode) (u : Bool) (d r : Nat) (s : State) : Result :=
  .next (runMul m u d [d, r] (s.readGpr r m.width) s)

/-- MUL, immediate14 (R207). -/
def execMulImm (m : MMode) (u : Bool) (d : Nat) (imm : BitVec 14) (s : State) : Result :=
  .next (runMul m u d [d] (extendImm u imm m.width) s)

/-- DIV, register (R208). -/
def execDivReg (m : MMode) (u : Bool) (d r : Nat) (s : State) : Result :=
  .next (runDiv m u d [d, r] (s.readGpr r m.width) s)

/-- DIV, immediate14 (R208). -/
def execDivImm (m : MMode) (u : Bool) (d : Nat) (imm : BitVec 14) (s : State) : Result :=
  .next (runDiv m u d [d] (extendImm u imm m.width) s)

/-- MAD, register (R335). -/
def execMadReg (m : MMode) (u : Bool) (d r t : Nat) (s : State) : Result :=
  .next (runMad m u d r [d, r, t] (s.readGpr t m.width) s)

/-- MAD, immediate8 (R335). -/
def execMadImm (m : MMode) (u : Bool) (d r : Nat) (imm : BitVec 8) (s : State) : Result :=
  .next (runMad m u d r [d, r] (extendImm u imm m.width) s)

/-- MSU, register (R336). -/
def execMsuReg (m : MMode) (u : Bool) (d r t : Nat) (s : State) : Result :=
  .next (runMsu m u d r [d, r, t] (s.readGpr t m.width) s)

/-- MSU, immediate8 (R336). -/
def execMsuImm (m : MMode) (u : Bool) (d r : Nat) (imm : BitVec 8) (s : State) : Result :=
  .next (runMsu m u d r [d, r] (extendImm u imm m.width) s)

end Sys2Proof.Machine
end

