-- ==== Sys2Proof/Machine/Dispatch.lean ====
section
/-! DEFINITION. The meaning of every instruction, one arm per constructor. -/
namespace Sys2Proof.Machine

def exec (i : Instr) (s : State) : Host.Outcome State Fault Refusal :=
  match i with
  | .loadDisp m d b off => Sys2Proof.Machine.execLoadDisp m d b off s
  | .loadReg m d x => Sys2Proof.Machine.execLoadReg m d x s
  | .loadRegPostInc m d x => Sys2Proof.Machine.execLoadRegPostInc m d x s
  | .loadRegPostDec m d x => Sys2Proof.Machine.execLoadRegPostDec m d x s
  | .loadRegPreInc m d x => Sys2Proof.Machine.execLoadRegPreInc m d x s
  | .loadRegPreDec m d x => Sys2Proof.Machine.execLoadRegPreDec m d x s
  | .loadIdx m d b x => Sys2Proof.Machine.execLoadIdx m d b x s
  | .loadIdxPostInc m d b x => Sys2Proof.Machine.execLoadIdxPostInc m d b x s
  | .loadIdxPostDec m d b x => Sys2Proof.Machine.execLoadIdxPostDec m d b x s
  | .loadIdxPreInc m d b x => Sys2Proof.Machine.execLoadIdxPreInc m d b x s
  | .loadIdxPreDec m d b x => Sys2Proof.Machine.execLoadIdxPreDec m d b x s
  | .storeDisp m d b off => Sys2Proof.Machine.execStoreDisp m d b off s
  | .storeReg m d x => Sys2Proof.Machine.execStoreReg m d x s
  | .storeRegPostInc m d x => Sys2Proof.Machine.execStoreRegPostInc m d x s
  | .storeRegPostDec m d x => Sys2Proof.Machine.execStoreRegPostDec m d x s
  | .storeRegPreInc m d x => Sys2Proof.Machine.execStoreRegPreInc m d x s
  | .storeRegPreDec m d x => Sys2Proof.Machine.execStoreRegPreDec m d x s
  | .storeIdx m d b x => Sys2Proof.Machine.execStoreIdx m d b x s
  | .storeIdxPostInc m d b x => Sys2Proof.Machine.execStoreIdxPostInc m d b x s
  | .storeIdxPostDec m d b x => Sys2Proof.Machine.execStoreIdxPostDec m d b x s
  | .storeIdxPreInc m d b x => Sys2Proof.Machine.execStoreIdxPreInc m d b x s
  | .storeIdxPreDec m d b x => Sys2Proof.Machine.execStoreIdxPreDec m d b x s
  | .loadLockedDisp m d b off => Sys2Proof.Machine.execLoadLockedDisp m d b off s
  | .loadLockedReg m d x => Sys2Proof.Machine.execLoadLockedReg m d x s
  | .loadLockedRegPostInc m d x => Sys2Proof.Machine.execLoadLockedRegPostInc m d x s
  | .loadLockedRegPostDec m d x => Sys2Proof.Machine.execLoadLockedRegPostDec m d x s
  | .loadLockedRegPreInc m d x => Sys2Proof.Machine.execLoadLockedRegPreInc m d x s
  | .loadLockedRegPreDec m d x => Sys2Proof.Machine.execLoadLockedRegPreDec m d x s
  | .loadLockedIdx m d b x => Sys2Proof.Machine.execLoadLockedIdx m d b x s
  | .loadLockedIdxPostInc m d b x => Sys2Proof.Machine.execLoadLockedIdxPostInc m d b x s
  | .loadLockedIdxPostDec m d b x => Sys2Proof.Machine.execLoadLockedIdxPostDec m d b x s
  | .loadLockedIdxPreInc m d b x => Sys2Proof.Machine.execLoadLockedIdxPreInc m d b x s
  | .loadLockedIdxPreDec m d b x => Sys2Proof.Machine.execLoadLockedIdxPreDec m d b x s
  | .storeCondDisp m d b off => Sys2Proof.Machine.execStoreCondDisp m d b off s
  | .storeCondReg m d x => Sys2Proof.Machine.execStoreCondReg m d x s
  | .storeCondRegPostInc m d x => Sys2Proof.Machine.execStoreCondRegPostInc m d x s
  | .storeCondRegPostDec m d x => Sys2Proof.Machine.execStoreCondRegPostDec m d x s
  | .storeCondRegPreInc m d x => Sys2Proof.Machine.execStoreCondRegPreInc m d x s
  | .storeCondRegPreDec m d x => Sys2Proof.Machine.execStoreCondRegPreDec m d x s
  | .storeCondIdx m d b x => Sys2Proof.Machine.execStoreCondIdx m d b x s
  | .storeCondIdxPostInc m d b x => Sys2Proof.Machine.execStoreCondIdxPostInc m d b x s
  | .storeCondIdxPostDec m d b x => Sys2Proof.Machine.execStoreCondIdxPostDec m d b x s
  | .storeCondIdxPreInc m d b x => Sys2Proof.Machine.execStoreCondIdxPreInc m d b x s
  | .storeCondIdxPreDec m d b x => Sys2Proof.Machine.execStoreCondIdxPreDec m d b x s
  | .movRegReg m d x => Sys2Proof.Machine.execMovRegReg m d x s
  | .movRegSpc m d x => Sys2Proof.Machine.execMovRegSpc m d x s
  | .movSpcReg m d x => Sys2Proof.Machine.execMovSpcReg m d x s
  | .movRegDsp m d x => Sys2Proof.Machine.execMovRegDsp m d x s
  | .movDspReg m d x => Sys2Proof.Machine.execMovDspReg m d x s
  | .movRegFpr m d x => Sys2Proof.Machine.execMovRegFpr m d x s
  | .movFprReg m d x => Sys2Proof.Machine.execMovFprReg m d x s
  | .loadImm m u d imm => Sys2Proof.Machine.execLoadImm m u d imm s
  | .addReg m u d r => Sys2Proof.Machine.execAddReg m u d r s
  | .addImm m u d imm => Sys2Proof.Machine.execAddImm m u d imm s
  | .subReg m u d r => Sys2Proof.Machine.execSubReg m u d r s
  | .subImm m u d imm => Sys2Proof.Machine.execSubImm m u d imm s
  | .mulReg m u d r => Sys2Proof.Machine.execMulReg m u d r s
  | .mulImm m u d imm => Sys2Proof.Machine.execMulImm m u d imm s
  | .divReg m u d r => Sys2Proof.Machine.execDivReg m u d r s
  | .divImm m u d imm => Sys2Proof.Machine.execDivImm m u d imm s
  | .slReg m u d r => Sys2Proof.Machine.execSlReg m u d r s
  | .slImm m u d imm => Sys2Proof.Machine.execSlImm m u d imm s
  | .srReg m u d r => Sys2Proof.Machine.execSrReg m u d r s
  | .srImm m u d imm => Sys2Proof.Machine.execSrImm m u d imm s
  | .andReg m u d r => Sys2Proof.Machine.execAndReg m u d r s
  | .andImm m u d imm => Sys2Proof.Machine.execAndImm m u d imm s
  | .nandReg m u d r => Sys2Proof.Machine.execNandReg m u d r s
  | .nandImm m u d imm => Sys2Proof.Machine.execNandImm m u d imm s
  | .orReg m u d r => Sys2Proof.Machine.execOrReg m u d r s
  | .orImm m u d imm => Sys2Proof.Machine.execOrImm m u d imm s
  | .xorReg m u d r => Sys2Proof.Machine.execXorReg m u d r s
  | .xorImm m u d imm => Sys2Proof.Machine.execXorImm m u d imm s
  | .rlReg m d r => Sys2Proof.Machine.execRlReg m d r s
  | .rlImm m d imm => Sys2Proof.Machine.execRlImm m d imm s
  | .rrReg m d r => Sys2Proof.Machine.execRrReg m d r s
  | .rrImm m d imm => Sys2Proof.Machine.execRrImm m d imm s
  | .sbReg m d r => Sys2Proof.Machine.execSbReg m d r s
  | .sbImm m d imm => Sys2Proof.Machine.execSbImm m d imm s
  | .rbReg m d r => Sys2Proof.Machine.execRbReg m d r s
  | .rbImm m d imm => Sys2Proof.Machine.execRbImm m d imm s
  | .tbReg m d r => Sys2Proof.Machine.execTbReg m d r s
  | .tbImm m d imm => Sys2Proof.Machine.execTbImm m d imm s
  | .rvbReg m d r => Sys2Proof.Machine.execRvbReg m d r s
  | .rvbImm m d imm => Sys2Proof.Machine.execRvbImm m d imm s
  | .madReg m u d r t => Sys2Proof.Machine.execMadReg m u d r t s
  | .madImm m u d r imm => Sys2Proof.Machine.execMadImm m u d r imm s
  | .msuReg m u d r t => Sys2Proof.Machine.execMsuReg m u d r t s
  | .msuImm m u d r imm => Sys2Proof.Machine.execMsuImm m u d r imm s
  | .fadd d r => Sys2Proof.Machine.execFadd d r s
  | .fsub d r => Sys2Proof.Machine.execFsub d r s
  | .fmul d r => Sys2Proof.Machine.execFmul d r s
  | .fdiv d r => Sys2Proof.Machine.execFdiv d r s
  | .frem d r => Sys2Proof.Machine.execFrem d r s
  | .fcmp d r => Sys2Proof.Machine.execFcmp d r s
  | .fsqr d => Sys2Proof.Machine.execFsqr d s
  | .fabs d => Sys2Proof.Machine.execFabs d s
  | .fneg d => Sys2Proof.Machine.execFneg d s
  | .frnd d => Sys2Proof.Machine.execFrnd d s
  | .ff2i m u d => Sys2Proof.Machine.execFf2i m u d s
  | .fi2f m u d => Sys2Proof.Machine.execFi2f m u d s
  | .fextH d => Sys2Proof.Machine.execFextH d s
  | .fextW d => Sys2Proof.Machine.execFextW d s
  | .fextD d => Sys2Proof.Machine.execFextD d s
  | .fextQ d => Sys2Proof.Machine.execFextQ d s
  | .fext1 d => Sys2Proof.Machine.execFext1 d s
  | .fsqzH d => Sys2Proof.Machine.execFsqzH d s
  | .fsqzW d => Sys2Proof.Machine.execFsqzW d s
  | .fsqzD d => Sys2Proof.Machine.execFsqzD d s
  | .fsqzQ d => Sys2Proof.Machine.execFsqzQ d s
  | .fsqz1 d => Sys2Proof.Machine.execFsqz1 d s
  | .fmad d r t => Sys2Proof.Machine.execFmad d r t s
  | .fmsu d r t => Sys2Proof.Machine.execFmsu d r t s
  | .jmpReg a p l => Sys2Proof.Machine.execJmpReg a p l s
  | .jmpOff a p off => Sys2Proof.Machine.execJmpOff a p off s
  | .bzReg m a p g l => Sys2Proof.Machine.execBzReg m a p g l s
  | .bzOff m a p g off => Sys2Proof.Machine.execBzOff m a p g off s
  | .bnzReg m a p g l => Sys2Proof.Machine.execBnzReg m a p g l s
  | .bnzOff m a p g off => Sys2Proof.Machine.execBnzOff m a p g off s
  | .bmReg m a p g l => Sys2Proof.Machine.execBmReg m a p g l s
  | .bmOff m a p g off => Sys2Proof.Machine.execBmOff m a p g off s
  | .bmzReg m a p g l => Sys2Proof.Machine.execBmzReg m a p g l s
  | .bmzOff m a p g off => Sys2Proof.Machine.execBmzOff m a p g off s
  | .bnmReg m a p g l => Sys2Proof.Machine.execBnmReg m a p g l s
  | .bnmOff m a p g off => Sys2Proof.Machine.execBnmOff m a p g off s
  | .bnmoReg m a p g l => Sys2Proof.Machine.execBnmoReg m a p g l s
  | .bnmoOff m a p g off => Sys2Proof.Machine.execBnmoOff m a p g off s
  | .blReg m a p g l => Sys2Proof.Machine.execBlReg m a p g l s
  | .blOff m a p g off => Sys2Proof.Machine.execBlOff m a p g off s
  | .blzReg m a p g l => Sys2Proof.Machine.execBlzReg m a p g l s
  | .blzOff m a p g off => Sys2Proof.Machine.execBlzOff m a p g off s
  | .bnlReg m a p g l => Sys2Proof.Machine.execBnlReg m a p g l s
  | .bnlOff m a p g off => Sys2Proof.Machine.execBnlOff m a p g off s
  | .bnloReg m a p g l => Sys2Proof.Machine.execBnloReg m a p g l s
  | .bnloOff m a p g off => Sys2Proof.Machine.execBnloOff m a p g off s
  | .boReg m a p g l => Sys2Proof.Machine.execBoReg m a p g l s
  | .boOff m a p g off => Sys2Proof.Machine.execBoOff m a p g off s
  | .bnoReg m a p g l => Sys2Proof.Machine.execBnoReg m a p g l s
  | .bnoOff m a p g off => Sys2Proof.Machine.execBnoOff m a p g off s
  | .ret p => Sys2Proof.Machine.execRet p s
  | .reti p => Sys2Proof.Machine.execReti p s
  | .rete p => Sys2Proof.Machine.execRete p s
  | .retn p => Sys2Proof.Machine.execRetn p s
  | .waitReg l => Sys2Proof.Machine.execWaitReg l s
  | .waitImm n => Sys2Proof.Machine.execWaitImm n s

end Sys2Proof.Machine
end

