-- ==== Sys2Proof/Machine/Cycle.lean ====
section
/-! DEFINITION. One step of the machine (`spec/70_reset_and_hazards.md` R480, R485): one instruction, or one clock cycle
of a pause; then the events that arrived meanwhile, and the instruction boundary (`spec/60_exceptions.md` R432). -/
namespace Sys2Proof.Machine

/-- The machine at the point where it fetches. A step ends at a boundary with nothing left due, so this changes nothing
between two steps; a state with an event due is one whose boundary is still to be examined (R432). -/
def State.ready (s : State) : State := s.boundary

/-- The end of a step: the events that arrived during it, then the boundary, where the highest in rank of all that is
due is entered (R432). -/
def State.settle (s : State) : State := s.arrive.boundary

/-- The end of a step after an instruction that answered a next state. -/
def thenSettle : Result → Result
  | .next s => .next s.settle
  | .fault r => .fault r
  | .refused r => .refused r

/-- A word that is no instruction: INVALID INSTRUCTION (R413). -/
def State.invalidInstruction (s : State) : State := s.raiseCheck .invalidInstruction false

/-- Fetch at IC and run what the word decodes to (R88, R129, R419). -/
def fetchAndRun (s : State) : Result :=
  if s.busError .fetch s.fetchAddress 4 then .next s.fetchBusError
  else
    match decode s.fetchWord with
    | .ok i => exec i { s with ir := s.fetchWord }
    | .error _ => .next { s with ir := s.fetchWord }.invalidInstruction

/-- One step (log 20). In the undefined state of execution only a reset that arrives leads on (R419, log 25). -/
def cycle (s : State) : Result :=
  if s.errorState then (if s.arrive.errorState then .fault .undefinedExecution else .next s.settle)
  else if s.waiting then .next s.pauseCycle.settle
  else thenSettle (fetchAndRun s.ready)

/-- The state out of a pause and out of the undefined state (for `withFetchWord`). -/
def State.awake (s : State) : State := { s with waiting := false, errorState := false }

/-- A state whose next step fetches and runs the instruction whose bits are `w` (log 5): the four bytes stored, in the
machine's byte order, where that step fetches; the pause, the error state and a refusal of that fetch taken away. -/
def State.placeWord (s : State) (nbits w : Nat) : State :=
  let t := s.awake
  let addr := t.ready.fetchAddress
  let clear := { t with refused := t.refused.filter fun r => !({ t with refused := [r] }.busError .fetch addr 4) }
  clear.memWrite addr 4 (w % 2 ^ nbits)

end Sys2Proof.Machine
end

