-- ==== Sys2Proof/Safety.lean ====
section
/-! DEFINITION. The terms in which claims about the machine are stated: the invariants of a legal state, what a read and
a write of a register file are bit by bit, what completing, trapping and skipping leave, and the forms that one rule of
the spec covers. Each is written from the spec's rule and not from the meaning it is about. -/
namespace Sys2Proof.Machine

/-! ### Invariants -/

/-- Memory is in its canonical form and lists addresses of the address space only (R83). -/
abbrev State.memoryOk (s : State) : Prop :=
  Memory.wf s.mem = true ∧ Memory.below (addressSpace s.cfg) s.mem = true

/-- Every register of a file holds no bit above the file's width (R21). -/
abbrev fitsWidth (width : Nat) (f : List RegBits) : Prop := ∀ r ∈ f, r.toNat < 2 ^ width

/-- The register files have the sizes and the width the parameters give them (R10, R21, R26, R57, R61, R62), and the
bank in use exists (R49, R415). -/
abbrev State.registersOk (s : State) : Prop :=
  s.cfg.inRange = true ∧ s.banks.length = s.cfg.numBanks ∧ s.bank < s.cfg.numBanks
    ∧ (∀ f ∈ s.banks, f.length = s.cfg.numGpr ∧ fitsWidth s.cfg.gprWidth f)
    ∧ s.dsp.length = (if s.cfg.hasDsp then s.cfg.numDsp else 0) ∧ fitsWidth s.dspWidth s.dsp
    ∧ s.fpr.length = (if s.cfg.hasFpr then s.cfg.numFpr else 0) ∧ fitsWidth s.cfg.fprWidth s.fpr
    ∧ s.spcExtra.length = s.cfg.numSpc - 27

/-- INSTRUCTION COUNTER has IC_WIDTH bits (R28), and the mask of the NMI is 0 (R43). -/
abbrev State.counterOk (s : State) : Prop := s.ic.toNat < 2 ^ s.cfg.icWidth ∧ s.exm.getLsbD 0 = false

/-- The wait timer has WAIT_TIMER_WIDTH bits and is 0 out of a pause (R383 to R385), no debug entry is due between two
steps (R412), and the undefined state is signalled on the error line (R419). -/
abbrev State.hiddenOk (s : State) : Prop :=
  s.waitTimer < 2 ^ s.cfg.waitTimerWidth ∧ (s.waiting = false → s.waitTimer = 0) ∧ s.debugDue = false
    ∧ (s.errorState = true → s.errorLine = true)

/-- A reservation is over an address of the address space, one machine mode wide (R97). -/
abbrev State.reservationOk (s : State) : Prop :=
  ∀ a n, s.reservation = some (a, n) → a < addressSpace s.cfg ∧ ∃ m : MMode, n = m.bytes

/-! ### Register files, bit by bit (R22, R24, R25) -/

/-- Bit `k` of a wide access at register `n` of a file: bit `k mod vw` of the register `k / vw` places on, counted
modulo the file's size (R24). -/
def bitAt (f : List RegBits) (vw n k : Nat) : Bool := (f.getD ((n + k / vw) % f.length) 0).getLsbD (k % vw)

/-- `g` is `f` after a `w`-bit value is written at register `n`: each bit of the value stands where R25 puts it, and
every other bit of every register keeps its value (R22, R25). -/
def FileUpdated (f g : List RegBits) (vw n : Nat) {w : Nat} (v : BitVec w) : Prop :=
  g.length = f.length
    ∧ (∀ k, k < w → bitAt g vw n k = v.getLsbD k)
    ∧ ∀ i j, (∀ k, k < w → ¬(i = (n + k / vw) % f.length ∧ j = k % vw))
        → (g.getD i 0).getLsbD j = (f.getD i 0).getLsbD j

/-! ### Completing, trapping, skipping -/

/-- The EXC bits of a list of exceptions joined to `before` (R42). -/
def ExcMarked (before after : DWord) (raised : List Exc) : Prop :=
  ∀ n, after.getLsbD n = (before.getLsbD n || raised.any fun e => e.number == n)

/-- What completing an instruction leaves beside its own writes (R28, R41, R42, R64, R408, R412): LAST_WORD is its word;
EXC has the exceptions it raised and, in debug mode, number 1; EXI is its word where there is one of them; a debug entry
is due as judged on the state it started in. -/
def Completed (s t : State) (raised : List Exc) : Prop :=
  t.lastWord = s.ir
    ∧ ExcMarked s.exc t.exc (if t.debugMode then raised ++ [.debugMode] else raised)
    ∧ t.exi = (if raised.isEmpty && !t.debugMode then s.exi else s.ir)
    ∧ t.debugDue = (if t.debugMode then s.exceptionsEnabled && !s.exm.getLsbD 1 else s.debugDue)

/-- The SCR an entry to exception or NMI handling leaves: SYSTEM MODE set, ENABLE EXCEPTIONS and ENABLE INTERRUPTS
cleared, every other bit kept (R420, R422). -/
def ScrEntered (before after : Word) : Prop :=
  ∀ n, after.getLsbD n = (if n = 0 then true else if n = 2 ∨ n = 3 then false else before.getLsbD n)

/-- A potent instruction-raised exception (R406, R422): EXC, EXI, ERP, SAVED_E, SCR and IC are written and nothing else
is. -/
def Trapped (s t : State) (raised : List Exc) : Prop :=
  t = { s with
    exc := t.exc, exi := s.ir, erp := s.icNext,
    savedE := some ⟨s.scr.getLsbD 0, s.scr.getLsbD 2, s.scr.getLsbD 3⟩, scr := t.scr, ic := wrapIc s.cfg s.etb }
    ∧ ExcMarked s.exc t.exc raised ∧ ScrEntered s.scr t.scr

/-- An impotent exception of the skipped kind (R408): EXC, EXI and IC + 1; `est1` says whether EST[1] is set (R35). -/
def Skipped (s t : State) (e : Exc) (est1 : Bool) : Prop :=
  t = { s with
    ic := s.icNext, exc := t.exc, exi := t.exi, lastWord := t.lastWord, debugDue := t.debugDue, est := t.est }
    ∧ Completed s t [e]
    ∧ ∀ n, t.est.getLsbD n = (s.est.getLsbD n || (est1 && n == 1))

/-- A check that fails: the exception traps when it is potent and skips the instruction when it is not (R406, R408). -/
def Refused (s t : State) (e : Exc) (est1 : Bool) : Prop :=
  if s.potent e then Trapped s t [e] else Skipped s t e est1

/-- None of the exceptions is potent (R401). -/
def NonePotent (s : State) (raised : List Exc) : Prop := ∀ e ∈ raised, s.potent e = false

/-! ### The end of a step -/

/-- `u` is the state in which the events of the step from `s` arrive: the undefined state as it stands, a pause after
one clock cycle, else what the word fetched at IC leaves (R480, R485; log 20). -/
def EventsMeet (s u : State) : Prop :=
  s.errorState = true ∧ u = s
    ∨ s.errorState = false ∧ s.waiting = true ∧ u = s.pauseCycle
    ∨ s.errorState = false ∧ s.waiting = false ∧ fetchAndRun s.ready = .next u

/-- What one event of the environment does to the state it arrives in (R484). An interrupt request and an NMI are
marked pending (R420, R429); a reset leaves every special register, hidden item and line at its reset value, keeps
memory and the parameters, and gives the GPRs, DSP registers and FPRs values nothing says (R471 to R473); the
reservation is given up (R98, P4); another agent's write changes its byte of memory and empties a reservation over
that byte and no other (R98); a DSP exception marks its bit, 16 to 19, and EXI takes the last completed instruction's
word (R407, R453; log 21); the DSP unit changes one of its registers (R61); the platform changes what it refuses (P5,
log 22). -/
def EventDone (e : Event) (u t : State) : Prop :=
  match e with
  | .irq => t = { u with irqPending := true }
  | .nmi => t = { u with nmiPending := true }
  | .reset =>
    t = { u with
        banks := t.banks, dsp := t.dsp, fpr := t.fpr, resets := u.resets + 1,
        ic := 0, est := 0, exi := 0, exc := 0, exm := 0, etb := 0, itb := 0, cid := 0, pid := 0, scr := 1, nrp := 0,
        erp := 0, ucr := 0, crp := 0, irp := 0, dcr := 0, spcExtra := List.replicate u.spcExtra.length 0,
        reservation := none, irqPending := false, nmiPending := false, waitTimer := 0, waiting := false,
        savedN := none, savedE := none, savedI := none, lastWord := 0, errorState := false, errorLine := false,
        ir := 0, debugDue := false }
      ∧ t.banks.length = u.banks.length ∧ t.dsp.length = u.dsp.length ∧ t.fpr.length = u.fpr.length
  | .reservationLost => t = { u with reservation := none }
  | .agentWrite a v =>
    t = { u with mem := t.mem, reservation := t.reservation }
      ∧ Memory.byteAt t.mem (a % addressSpace u.cfg) = v
      ∧ (∀ b, b ≠ a % addressSpace u.cfg → Memory.byteAt t.mem b = Memory.byteAt u.mem b)
      ∧ ∀ ea n, t.reservation = some (ea, n)
          ↔ u.reservation = some (ea, n) ∧ ∀ k, k < n → (ea + k) % addressSpace u.cfg ≠ a % addressSpace u.cfg
  | .dspException k =>
    t = (if u.cfg.hasDsp then { u with exc := t.exc, exi := u.lastWord } else u)
      ∧ (u.cfg.hasDsp = true → ∀ n, t.exc.getLsbD n = (u.exc.getLsbD n || n == 16 + k.val))
  | .dspWrite n v =>
    t = { u with dsp := t.dsp } ∧ t.dsp.length = u.dsp.length
      ∧ (∀ k, k ≠ n → t.dsp[k]? = u.dsp[k]?)
      ∧ (n < u.dsp.length → ∀ j, j < 1024 → (t.dsp.getD n 0).getLsbD j = (decide (j < u.dspWidth) && v.getLsbD j))
  | .refuse regions => t = { u with refused := regions }

/-- The events of one step, received one after another in the order of their list (log 21). -/
def EventsDone : List Event → State → State → Prop
  | [], u, t => t = u
  | e :: es, u, t => ∃ v, EventDone e u v ∧ EventsDone es v t

/-! ### When an instruction executes normally -/

/-- The bank in use exists, the word is implemented, a `w`-bit access takes no more GPRs than there are, and the GPRs
named exist (R27, R202, R416, R417, D39). -/
def GprReady (s : State) (w : Nat) (regs : List Nat) : Prop :=
  s.bank < s.banks.length ∧ s.lacks = false ∧ partsNeeded s.vw w ≤ s.gpr.length ∧ ∀ r ∈ regs, r < s.gpr.length

/-- The same for the file the FP instructions use, with an FPU (R280, R283, R287). -/
def FpReady (s : State) (w : Nat) (regs : List Nat) : Prop :=
  s.cfg.inRange = true ∧ (s.cfg.hasFpr = false → s.bank < s.banks.length) ∧ s.cfg.fpuType ≠ 0 ∧ s.lacks = false
    ∧ partsNeeded s.fpPart w ≤ s.fpFile.length ∧ ∀ r ∈ regs, r < s.fpFile.length

/-- A `w`-bit access that needs more registers than a file that is there has (U3, D39; log 10). -/
def TooWide (f : List RegBits) (vw w : Nat) : Prop := f ≠ [] ∧ f.length < partsNeeded vw w

/-- What a completing instruction with a GPR destination may change: the GPR file in use, EST, and what completing
writes. Every other register, bank, special register and byte of memory is unchanged. -/
def OnlyGprs (s t : State) : Prop :=
  t = { s with
    banks := s.banks.set s.bank t.gpr, est := t.est, ic := s.icNext, exc := t.exc, exi := t.exi, lastWord := t.lastWord,
    debugDue := t.debugDue }

/-- The same for an instruction whose destination is in the file of the FP instructions (R283). -/
def OnlyFp (s t : State) : Prop :=
  t = { s with
    banks := if s.cfg.hasFpr then s.banks else s.banks.set s.bank t.gpr,
    fpr := if s.cfg.hasFpr then t.fpr else s.fpr,
    est := t.est, ic := s.icNext, exc := t.exc, exi := t.exi, lastWord := t.lastWord, debugDue := t.debugDue }

/-! ### EXECUTION STATUS -/

/-- EST[15:0] has exactly the bits `f` gives and EST[31:16] is kept (R205, R233, R291). -/
def EstIs (before after : Word) (f : Nat → Bool) : Prop :=
  ∀ n, after.getLsbD n = if n < 16 then f n else before.getLsbD n

/-- The bits of IntEST (R205). -/
def intBits (a b : Int) (sign zero ov dz : Bool) : Nat → Bool
  | 2 => dz
  | 3 => ov
  | 5 => decide (a = b)
  | 6 => decide (b < a)
  | 7 => decide (a < b)
  | 10 => sign
  | 11 => zero
  | _ => false

/-- The bits of LogEST (R233). -/
def logBits (a b : Nat) (sign zero ov inv : Bool) : Nat → Bool
  | 0 => inv
  | 3 => ov
  | 5 => decide (a = b)
  | 6 => decide (b < a)
  | 7 => decide (a < b)
  | 10 => sign
  | 11 => zero
  | _ => false

/-- The bits of FpEST for an FP result `res` in format `f` (R291): `raised` is the set S, `inexact` whether the result
is inexact, `order` the comparison of the first two operands where there are two and neither is a NaN, `zeroDivisor`
FDIV's divisor zero. -/
def fpBits (f : FpFormat) (raised : List Exc) (inexact zeroDivisor : Bool) (order : Option Ordering) (res : Nat) :
    Nat → Bool
  | 0 => raised.contains .fpInvalidOperation
  | 2 => zeroDivisor
  | 3 => raised.contains .fpOverflow
  | 4 => raised.contains .fpUnderflow && inexact
  | 5 => order == some .eq
  | 6 => order == some .gt
  | 7 => order == some .lt
  | 8 => raised.contains .fpInexactResult
  | 10 => fpSign f res
  | 11 => (unpack f res).isZero
  | 12 => raised.contains .fpDenormalizedOperand || isDenormal f res
  | 13 => (unpack f res).isInfinite
  | 14 => (unpack f res).isSignaling
  | 15 => (unpack f res).isNan
  | _ => false

/-! ### The forms one rule covers -/

/-- The second operand of the two-operand integer, shift, logic and bit instructions (R118, R201). -/
inductive Operand2 where
  | reg (r : Nat)
  | imm (v : BitVec 14)
deriving DecidableEq, Repr

/-- The GPRs it names. -/
def Operand2.registers : Operand2 → List Nat
  | .reg r => [r]
  | .imm _ => []

/-- Its value at the width of a mode; `zeroExtended` is how the instruction extends an immediate (R122, R201, R231). -/
def Operand2.value (o : Operand2) (s : State) (m : MMode) (zeroExtended : Bool) : BitVec m.width :=
  match o with
  | .reg r => s.readGpr r m.width
  | .imm v => if zeroExtended then v.setWidth m.width else v.signExtend m.width

/-- The instruction of a pair of forms. -/
def Operand2.instr (o : Operand2) (reg : Nat → Instr) (imm : BitVec 14 → Instr) : Instr :=
  match o with
  | .reg r => reg r
  | .imm v => imm v

/-- The third operand of MAD and MSU (R332). -/
inductive Operand3 where
  | reg (t : Nat)
  | imm (v : BitVec 8)
deriving DecidableEq, Repr

/-- The GPRs it names. -/
def Operand3.registers : Operand3 → List Nat
  | .reg t => [t]
  | .imm _ => []

/-- Its value at the width of a mode (R332). -/
def Operand3.value (o : Operand3) (s : State) (m : MMode) (u : Bool) : BitVec m.width :=
  match o with
  | .reg t => s.readGpr t m.width
  | .imm v => if u then v.setWidth m.width else v.signExtend m.width

/-- The instruction of a pair of forms. -/
def Operand3.instr (o : Operand3) (reg : Nat → Instr) (imm : BitVec 8 → Instr) : Instr :=
  match o with
  | .reg t => reg t
  | .imm v => imm v

/-- The load of each of the eleven address forms (R174, R115). -/
def loadForm (m : MMode) (d : Nat) : Addressing → Instr
  | .displacement b off => .loadDisp m d b off
  | .register x .none => .loadReg m d x
  | .register x .postInc => .loadRegPostInc m d x
  | .register x .postDec => .loadRegPostDec m d x
  | .register x .preInc => .loadRegPreInc m d x
  | .register x .preDec => .loadRegPreDec m d x
  | .indexed b x .none => .loadIdx m d b x
  | .indexed b x .postInc => .loadIdxPostInc m d b x
  | .indexed b x .postDec => .loadIdxPostDec m d b x
  | .indexed b x .preInc => .loadIdxPreInc m d b x
  | .indexed b x .preDec => .loadIdxPreDec m d b x

/-- The store of each address form (R175). -/
def storeForm (m : MMode) (d : Nat) : Addressing → Instr
  | .displacement b off => .storeDisp m d b off
  | .register x .none => .storeReg m d x
  | .register x .postInc => .storeRegPostInc m d x
  | .register x .postDec => .storeRegPostDec m d x
  | .register x .preInc => .storeRegPreInc m d x
  | .register x .preDec => .storeRegPreDec m d x
  | .indexed b x .none => .storeIdx m d b x
  | .indexed b x .postInc => .storeIdxPostInc m d b x
  | .indexed b x .postDec => .storeIdxPostDec m d b x
  | .indexed b x .preInc => .storeIdxPreInc m d b x
  | .indexed b x .preDec => .storeIdxPreDec m d b x

/-- The load-locked of each address form (R176). -/
def loadLockedForm (m : MMode) (d : Nat) : Addressing → Instr
  | .displacement b off => .loadLockedDisp m d b off
  | .register x .none => .loadLockedReg m d x
  | .register x .postInc => .loadLockedRegPostInc m d x
  | .register x .postDec => .loadLockedRegPostDec m d x
  | .register x .preInc => .loadLockedRegPreInc m d x
  | .register x .preDec => .loadLockedRegPreDec m d x
  | .indexed b x .none => .loadLockedIdx m d b x
  | .indexed b x .postInc => .loadLockedIdxPostInc m d b x
  | .indexed b x .postDec => .loadLockedIdxPostDec m d b x
  | .indexed b x .preInc => .loadLockedIdxPreInc m d b x
  | .indexed b x .preDec => .loadLockedIdxPreDec m d b x

/-- The store-conditional of each address form (R177). -/
def storeCondForm (m : MMode) (d : Nat) : Addressing → Instr
  | .displacement b off => .storeCondDisp m d b off
  | .register x .none => .storeCondReg m d x
  | .register x .postInc => .storeCondRegPostInc m d x
  | .register x .postDec => .storeCondRegPostDec m d x
  | .register x .preInc => .storeCondRegPreInc m d x
  | .register x .preDec => .storeCondRegPreDec m d x
  | .indexed b x .none => .storeCondIdx m d b x
  | .indexed b x .postInc => .storeCondIdxPostInc m d b x
  | .indexed b x .postDec => .storeCondIdxPostDec m d b x
  | .indexed b x .preInc => .storeCondIdxPreInc m d b x
  | .indexed b x .preDec => .storeCondIdxPreDec m d b x

/-- The number an index update adds to the index register, one mode's bytes up or down (R171). -/
def IndexUpdate.change (upd : IndexUpdate) (m : MMode) : Int :=
  match upd with
  | .none => 0
  | .postInc => m.bytes
  | .postDec => -m.bytes
  | .preInc => m.bytes
  | .preDec => -m.bytes

/-- The part of the change that comes before the address is formed (R171). -/
def IndexUpdate.before (upd : IndexUpdate) (m : MMode) : Int :=
  match upd with
  | .none => 0
  | .postInc => 0
  | .postDec => 0
  | .preInc => m.bytes
  | .preDec => -m.bytes

/-- The effective address by R171: a sum modulo 2^VW whose low PHYS_ADDR_WIDTH bits address memory (R83). -/
def effectiveAddress (a : Addressing) (m : MMode) (s : State) : Int :=
  (match a with
   | .displacement b off => ((s.readGpr b s.vw).toNat : Int) + off.toInt
   | .register x upd => ((s.readGpr x s.vw).toNat : Int) + upd.before m
   | .indexed b x upd => ((s.readGpr b s.vw).toNat : Int) + ((s.readGpr x s.vw).toNat : Int) + upd.before m)
    % 2 ^ s.vw % 2 ^ s.cfg.physAddrWidth

/-- The GPR file after the index update of a form (R171, R172): the index register has the index with the change added,
modulo 2^VW, or nothing is written. -/
def IndexUpdated (a : Addressing) (m : MMode) (s : State) (g : List RegBits) : Prop :=
  match a with
  | .displacement _ _ => g = s.gpr
  | .register x upd =>
    if upd = .none then g = s.gpr
    else FileUpdated s.gpr g s.vw x (BitVec.ofInt s.vw ((s.readGpr x s.vw).toNat + upd.change m))
  | .indexed _ x upd =>
    if upd = .none then g = s.gpr
    else FileUpdated s.gpr g s.vw x (BitVec.ofInt s.vw ((s.readGpr x s.vw).toNat + upd.change m))

/-- The address and the number of bytes a store or store-conditional stores to; no other instruction stores (R175,
R177). -/
def storeTarget (i : Instr) (s : State) : Option (Nat × Nat) :=
  match i with
  | .storeDisp m _ b off => some ((Addressing.displacement b off).address m s, m.bytes)
  | .storeReg m _ x => some ((Addressing.register x .none).address m s, m.bytes)
  | .storeRegPostInc m _ x => some ((Addressing.register x .postInc).address m s, m.bytes)
  | .storeRegPostDec m _ x => some ((Addressing.register x .postDec).address m s, m.bytes)
  | .storeRegPreInc m _ x => some ((Addressing.register x .preInc).address m s, m.bytes)
  | .storeRegPreDec m _ x => some ((Addressing.register x .preDec).address m s, m.bytes)
  | .storeIdx m _ b x => some ((Addressing.indexed b x .none).address m s, m.bytes)
  | .storeIdxPostInc m _ b x => some ((Addressing.indexed b x .postInc).address m s, m.bytes)
  | .storeIdxPostDec m _ b x => some ((Addressing.indexed b x .postDec).address m s, m.bytes)
  | .storeIdxPreInc m _ b x => some ((Addressing.indexed b x .preInc).address m s, m.bytes)
  | .storeIdxPreDec m _ b x => some ((Addressing.indexed b x .preDec).address m s, m.bytes)
  | .storeCondDisp m _ b off => some ((Addressing.displacement b off).address m s, m.bytes)
  | .storeCondReg m _ x => some ((Addressing.register x .none).address m s, m.bytes)
  | .storeCondRegPostInc m _ x => some ((Addressing.register x .postInc).address m s, m.bytes)
  | .storeCondRegPostDec m _ x => some ((Addressing.register x .postDec).address m s, m.bytes)
  | .storeCondRegPreInc m _ x => some ((Addressing.register x .preInc).address m s, m.bytes)
  | .storeCondRegPreDec m _ x => some ((Addressing.register x .preDec).address m s, m.bytes)
  | .storeCondIdx m _ b x => some ((Addressing.indexed b x .none).address m s, m.bytes)
  | .storeCondIdxPostInc m _ b x => some ((Addressing.indexed b x .postInc).address m s, m.bytes)
  | .storeCondIdxPostDec m _ b x => some ((Addressing.indexed b x .postDec).address m s, m.bytes)
  | .storeCondIdxPreInc m _ b x => some ((Addressing.indexed b x .preInc).address m s, m.bytes)
  | .storeCondIdxPreDec m _ b x => some ((Addressing.indexed b x .preDec).address m s, m.bytes)
  | _ => none

/-- The twelve branches (R361 to R372). -/
inductive Branch where
  | bz | bnz | bm | bmz | bnm | bnmo | bl | blz | bnl | bnlo | bo | bno
deriving DecidableEq, Repr

/-- The condition of a branch (R354, R373): of the argument's MSB, LSB, all bits 0 and all bits 1. -/
def Branch.holds (c : Branch) {w : Nat} (v : BitVec w) : Bool :=
  let z := decide (v.toNat = 0)
  let o := decide (v.toNat = 2 ^ w - 1)
  let msb := decide (2 ^ (w - 1) ≤ v.toNat)
  let odd := decide (v.toNat % 2 = 1)
  match c with
  | .bz => z
  | .bnz => !z
  | .bm => msb
  | .bmz => msb || z
  | .bnm => !msb
  | .bnmo => !msb || o
  | .bl => odd
  | .blz => odd || z
  | .bnl => !odd
  | .bnlo => !odd || o
  | .bo => o
  | .bno => !o

/-- Where a transfer's value comes from (R351): a GPR or an offset of `n` bits. -/
inductive Target (n : Nat) where
  | location (l : Nat)
  | offset (off : BitVec n)
deriving DecidableEq, Repr

/-- The GPRs it names. -/
def Target.registers {n : Nat} : Target n → List Nat
  | .location l => [l]
  | .offset _ => []

/-- The transfer value as an integer (R351). -/
def Target.value {n : Nat} (t : Target n) (s : State) : Int :=
  match t with
  | .location l => (s.readGpr l s.vw).toInt
  | .offset off => off.toInt

/-- Where a transfer goes (R29, R352): absolute or relative to the transfer instruction, modulo 2^IC_WIDTH. -/
def Target.destination {n : Nat} (t : Target n) (a : Bool) (s : State) : Int :=
  (if a then t.value s else (s.ic.toNat : Int) + t.value s) % 2 ^ s.cfg.icWidth

/-- The branch instruction of a condition and a target. -/
def Branch.instr (c : Branch) (m : MMode) (a p : Bool) (g : Nat) (t : Target 14) : Instr :=
  match c, t with
  | .bz, .location l => .bzReg m a p g l
  | .bnz, .location l => .bnzReg m a p g l
  | .bm, .location l => .bmReg m a p g l
  | .bmz, .location l => .bmzReg m a p g l
  | .bnm, .location l => .bnmReg m a p g l
  | .bnmo, .location l => .bnmoReg m a p g l
  | .bl, .location l => .blReg m a p g l
  | .blz, .location l => .blzReg m a p g l
  | .bnl, .location l => .bnlReg m a p g l
  | .bnlo, .location l => .bnloReg m a p g l
  | .bo, .location l => .boReg m a p g l
  | .bno, .location l => .bnoReg m a p g l
  | .bz, .offset off => .bzOff m a p g off
  | .bnz, .offset off => .bnzOff m a p g off
  | .bm, .offset off => .bmOff m a p g off
  | .bmz, .offset off => .bmzOff m a p g off
  | .bnm, .offset off => .bnmOff m a p g off
  | .bnmo, .offset off => .bnmoOff m a p g off
  | .bl, .offset off => .blOff m a p g off
  | .blz, .offset off => .blzOff m a p g off
  | .bnl, .offset off => .bnlOff m a p g off
  | .bnlo, .offset off => .bnloOff m a p g off
  | .bo, .offset off => .boOff m a p g off
  | .bno, .offset off => .bnoOff m a p g off

/-- The jump instruction of a target (R360). -/
def jumpForm (a p : Bool) : Target 20 → Instr
  | .location l => .jmpReg a p l
  | .offset off => .jmpOff a p off

/-- What a completing control instruction may change: IC, CRP, and what completing writes (R350). -/
def OnlyTransfer (s t : State) : Prop :=
  t = { s with
    ic := t.ic, crp := t.crp, exc := t.exc, exi := t.exi, lastWord := t.lastWord, debugDue := t.debugDue }

/-! ### Results of the families -/

/-- A completing integer, shift, logic or bit instruction: its result at `d`, its flags, and nothing else (R205, R233,
R214, R435). -/
def IntDone (s t : State) (d : Nat) {w : Nat} (res : BitVec w) (raised : List Exc) (flags : Nat → Bool) : Prop :=
  OnlyGprs s t ∧ FileUpdated s.gpr t.gpr s.vw d res ∧ Completed s t raised ∧ EstIs s.est t.est flags

/-- A completing transfer to a GPR: EST is kept (R35). -/
def MovedToGpr (s t : State) (d : Nat) {w : Nat} (v : BitVec w) : Prop :=
  OnlyGprs s t ∧ t.est = s.est ∧ FileUpdated s.gpr t.gpr s.vw d v ∧ Completed s t []

/-- A completing FP instruction with an FP result in format `f` (R283, R290, R291). -/
def FpDone (s t : State) (d : Nat) (f : FpFormat) (r : Rounded) (raised : List Exc) (zeroDivisor : Bool)
    (order : Option Ordering) : Prop :=
  OnlyFp s t ∧ FileUpdated s.fpFile t.fpFile s.fpPart d (BitVec.ofNat f.width r.bits) ∧ Completed s t raised
    ∧ EstIs s.est t.est (fpBits f raised r.inexact zeroDivisor order r.bits)

/-- The numbers 13 to 15 of the set S of R294 for a rounded result: FP INEXACT RESULT joins FP OVERFLOW or FP UNDERFLOW
only where that one is impotent (R290). -/
def raisedByRounding (s : State) (r : Rounded) : List Exc :=
  if r.overflow then (if s.potent .fpOverflow then [.fpOverflow] else [.fpOverflow, .fpInexactResult])
  else if r.tiny then
    (if r.inexact && !s.potent .fpUnderflow then [.fpUnderflow, .fpInexactResult] else [.fpUnderflow])
  else if r.inexact then [.fpInexactResult] else []

/-- The set S of R294. -/
def raisedByFp (s : State) (invalid denormal byZero : Bool) (r : Rounded) : List Exc :=
  (if invalid then [.fpInvalidOperation] else []) ++ (if denormal then [.fpDenormalizedOperand] else [])
    ++ (if invalid then [] else if byZero then [.fpDivisionByZero] else raisedByRounding s r)

/-- The result of an FP operation whose exact value is `v`, in format `f`: QNAN where the operation is invalid (R292),
else the value rounded in the current mode (R284). -/
def fpRoundedResult (s : State) (f : FpFormat) (v : Option FpVal) : Rounded :=
  match v with
  | none => { bits := quietNan f }
  | some x => roundTo f s.roundingMode x false

/-- The value of a finite FP number; an infinity and a NaN have none and count as 0. -/
def FpVal.toRat : FpVal → ℚ
  | .finite neg sig exp => (if neg then -1 else 1) * (sig : ℚ) * (2 : ℚ) ^ exp
  | _ => 0

/-- The sign of a value; a NaN has none and counts as positive. -/
def FpVal.negative : FpVal → Bool
  | .zero neg => neg
  | .finite neg _ _ => neg
  | .infinite neg => neg
  | .nan _ => false

/-- The natural number `n` times `unit` is the magnitude `x` of a number with sign `neg`, rounded as a mode says
(R284, D25): one of the two multiples of `unit` beside `x`, chosen by direction, or the nearer one, or on a tie the
one the mode names; `inexact` tells whether `x` was no multiple. -/
def RoundsTo (mode : RoundingMode) (neg : Bool) (x : ℚ) (n : Nat) (unit : ℚ) (inexact : Bool) : Prop :=
  let y : ℚ := n * unit
  (inexact = false ↔ ∃ k : Nat, x = k * unit)
    ∧ (inexact = false → y = x)
    ∧ |y - x| < unit
    ∧ (match mode with
        | .toZero => y ≤ x
        | .zeroAway => x ≤ y
        | .positive => if neg then y ≤ x else x ≤ y
        | .negative => if neg then x ≤ y else y ≤ x
        | _ => |y - x| * 2 ≤ unit)
    ∧ (|y - x| * 2 = unit →
        match mode with
        | .nearestEven => n % 2 = 0
        | .nearestOdd => n % 2 = 1
        | .nearestAway => x ≤ y
        | .nearestPositive => if neg then y ≤ x else x ≤ y
        | .nearestNegative => if neg then x ≤ y else y ≤ x
        | .nearestZero => y ≤ x
        | _ => True)

/-- `x` is the magnitude that `sig * 2^exp` stands for before rounding: that number, or with `sticky` one above it and
below the next multiple of `2^exp`. -/
def StandsFor (sig : Nat) (exp : Int) (sticky : Bool) (x : ℚ) : Prop :=
  if sticky then (sig : ℚ) * 2 ^ exp < x ∧ x < ((sig : ℚ) + 1) * 2 ^ exp else x = (sig : ℚ) * 2 ^ exp

/-- The result of an overflow is an infinity, in a mode, for a sign; else it is the largest finite number (R293). -/
def overflowsToInfinity (mode : RoundingMode) (neg : Bool) : Bool :=
  match mode with
  | .positive => !neg
  | .negative => neg
  | .toZero => false
  | _ => true

/-- A zero or a finite number, whose significand is not 0 (R286). -/
def FpVal.isNumber : FpVal → Bool
  | .zero _ => true
  | .finite _ sig _ => sig != 0
  | _ => false

/-- The two-operand integer, shift, logic and bit instructions at one set of operands. -/
def integerForms (m : MMode) (u : Bool) (d : Nat) (o : Operand2) : List Instr :=
  [o.instr (.addReg m u d) (.addImm m u d), o.instr (.subReg m u d) (.subImm m u d),
   o.instr (.slReg m u d) (.slImm m u d), o.instr (.srReg m u d) (.srImm m u d),
   o.instr (.andReg m u d) (.andImm m u d), o.instr (.nandReg m u d) (.nandImm m u d),
   o.instr (.orReg m u d) (.orImm m u d), o.instr (.xorReg m u d) (.xorImm m u d),
   o.instr (.rlReg m d) (.rlImm m d), o.instr (.rrReg m d) (.rrImm m d),
   o.instr (.sbReg m d) (.sbImm m d), o.instr (.rbReg m d) (.rbImm m d),
   o.instr (.tbReg m d) (.tbImm m d), o.instr (.rvbReg m d) (.rvbImm m d)]

/-- FEXT and FSQZ with the mode that names their format (R315). -/
def formatForms (d : Nat) : List (Instr × Instr × MMode) :=
  [(.fextH d, .fsqzH d, .half), (.fextW d, .fsqzW d, .word), (.fextD d, .fsqzD d, .dword),
   (.fextQ d, .fsqzQ d, .quad), (.fext1 d, .fsqz1 d, .sent)]

/-- The memory transfers at one mode, destination and address form (R174 to R177). -/
def memoryForms (m : MMode) (d : Nat) (a : Addressing) : List Instr :=
  [loadForm m d a, storeForm m d a, loadLockedForm m d a, storeCondForm m d a]

/-- The FP instructions on FP registers alone (R287): with the registers they name. -/
def floatForms (d r t : Nat) : List (Instr × List Nat) :=
  [(.fadd d r, [d, r]), (.fsub d r, [d, r]), (.fmul d r, [d, r]), (.fdiv d r, [d, r]), (.frem d r, [d, r]),
   (.fcmp d r, [d, r]), (.fsqr d, [d]), (.fabs d, [d]), (.fneg d, [d]), (.frnd d, [d]),
   (.fmad d r t, [d, r, t]), (.fmsu d r t, [d, r, t])]

end Sys2Proof.Machine
end

