-- ==== Sys2Proof/Certificates/Slice0/Obligations.lean ====
section
/-! DEFINITION. The statements for the provers. `R<n>` is a rule of spec/; "log <n>" is notes/assumptions/<n>.md. -/
open Sys2Proof Sys2Proof.Machine

/-! ### Encoding and the step -/

/-- Decoding the word of a well-formed instruction gives it back, with every operand at every value its field admits. -/
def Obligations.DecodeOfEncodeIsIdentity : Prop :=
  ∀ i : Instr, i.wellFormed = true → decode (encode i) = .ok i

/-- What the decoder reads is well-formed, and the OPCODE byte, and outside the displacement and load-immediate forms
(bits 31 and 26 both 1) the AUXCODE, are those of the instruction's own encoding (R112, R118, R126, R129): no bit that
selects the instruction is ignored. -/
def Obligations.DecodedWordHasItsOpcode : Prop :=
  ∀ w i, decode w = .ok i →
    i.wellFormed = true ∧ field w 24 8 = field (encode i) 24 8
      ∧ ((flag w 31 && flag w 26) = false → field w 14 4 = field (encode i) 14 4)

/-- Words of the source's examples decode to the instructions they stand for, and three words that are no instruction
are rejected by name (R131, R132). -/
def Obligations.ExampleWordsDecode : Prop :=
  decode 0xCC0C0085#32 = .ok (.loadDisp .half 3 2 5)
    ∧ decode 0x900C0002#32 = .ok (.storeReg .word 3 2)
    ∧ decode 0xD80F4081#32 = .ok (.loadIdxPreInc .dword 3 2 1)
    ∧ decode 0xC13C8003#32 = .ok (.movSpcReg .byte 15 3)
    ∧ decode 0xD50FFFFB#32 = .ok (.loadImm .word false 3 0x3FFFB)
    ∧ decode 0x140C76EB#32 = .ok (.subImm .word false 3 0x36EB)
    ∧ decode 0x120C8080#32 = .ok (.mulReg .word true 3 2)
    ∧ decode 0x040D4004#32 = .ok (.srImm .byte false 3 4)
    ∧ decode 0x160F000F#32 = .ok (.rvbImm .word 3 15)
    ∧ decode 0x140F90A4#32 = .ok (.madImm .word false 3 2 0x64)
    ∧ decode 0x010C0080#32 = .ok (.fadd 3 2)
    ∧ decode 0x110F4000#32 = .ok (.fsqzW 3)
    ∧ decode 0x44FC3FFD#32 = .ok (.jmpOff false false 0xFFFFD)
    ∧ decode 0x5608400F#32 = .ok (.bzOff .word true false 2 0xF)
    ∧ decode 0x51034000#32 = .ok (.rete true)
    ∧ decode 0x440381F4#32 = .ok (.waitImm 500)
    ∧ decode 0x80000000#32 ≠ decode 0x81000000#32
    ∧ decode 0x81000000#32 = .error .transferNotLoad
    ∧ decode 0x00034000#32 = .error .unassignedOperation
    ∧ decode 0x4003C000#32 = .error .unassignedControl

/-- One step of a core that is neither paused nor in the undefined state: with nothing due at the boundary, or what is
due entered, the word at IC is fetched and decodes to `i`; the step is exec of `i` there, with the word remembered,
then the events that arrived during the step, then the boundary (R88, R129, R480). That a step holds one instruction
between two boundaries, and its events before the second, is the model's choice (log 20); so are the list of events
(log 21), and that an NMI among them finds a handler that the instruction's own exception has entered already
(log 45). -/
def Obligations.StepRunsDecodedInstruction : Prop :=
  ∀ s i t, s.errorState = false → s.waiting = false →
    s.boundary.busError .fetch (4 * s.boundary.ic.toNat) 4 = false →
    decode (BitVec.ofNat 32 (s.boundary.memRead (4 * s.boundary.ic.toNat) 4)) = .ok i →
    exec i { s.boundary with ir := BitVec.ofNat 32 (s.boundary.memRead (4 * s.boundary.ic.toNat) 4) } = .next t →
    step s = .next t.arrive.boundary

/-- A word that is no instruction raises INVALID INSTRUCTION (R413): it traps or is skipped, with the word in EXI; then
the step ends as every step does (log 20). -/
def Obligations.InvalidWordRaisesInvalidInstruction : Prop :=
  ∀ s e, s.errorState = false → s.waiting = false →
    s.boundary.busError .fetch (4 * s.boundary.ic.toNat) 4 = false →
    decode (BitVec.ofNat 32 (s.boundary.memRead (4 * s.boundary.ic.toNat) 4)) = .error e →
    ∃ t, step s = .next t.arrive.boundary
      ∧ Refused { s.boundary with ir := BitVec.ofNat 32 (s.boundary.memRead (4 * s.boundary.ic.toNat) 4) } t
          .invalidInstruction false

/-- The word that `withFetchWord` places is the one the very next step fetches and runs (log 5), whatever else the state
holds, in a canonical memory of four bytes or more. -/
def Obligations.PlacedWordIsRunNext : Prop :=
  ∀ (s : State) (w : Nat) (i : Instr), s.memoryOk → 2 ≤ s.cfg.physAddrWidth → decodeTableWord 32 w = some i →
    ∃ u : State, u.ir = BitVec.ofNat 32 w ∧ u.banks = s.banks ∧ u.cfg = s.cfg
      ∧ step (s.withFetchWord 32 w) = thenSettle (exec i u)

/-! ### Invariants -/

/-- The state after reset is legal: every invariant of `Sys2Proof/Safety.lean` holds of it, and the reference
configuration is one that R5, R10 and R11 allow (logs 41, 43, 46). The sizes of its files are
the reference configuration's and its registers hold what the model chose (log 1, log 2). -/
def Obligations.ResetStateIsLegal : Prop :=
  State.reset.memoryOk ∧ State.reset.registersOk ∧ State.reset.counterOk ∧ State.reset.hiddenOk
    ∧ State.reset.reservationOk ∧ State.reset.cfg.legal = true

/-- Every step keeps memory in its canonical form, within the address space (R83). The form is the model's: the listed
bytes by rising address, none equal to what an unlisted byte reads as (log 4). -/
def Obligations.StepKeepsMemoryCanonical : Prop :=
  ∀ s t, s.memoryOk → step s = .next t → t.memoryOk

/-- Every step keeps the register files at their sizes and widths, and the bank in use an existing one (R21, R26, R49,
R415). -/
def Obligations.StepKeepsRegisterFiles : Prop :=
  ∀ s t, s.registersOk → step s = .next t → t.registersOk

/-- Every step keeps INSTRUCTION COUNTER within IC_WIDTH bits (R28, R29), bit 0 of EXCEPTION MASKS at 0 (R43), the wait
timer within its width and 0 out of a pause, no debug entry due and the undefined state signalled on the error line
(R384, R412, R419); and a reservation over an address below 2^PHYS_ADDR_WIDTH. The last is the model's choice (log 42):
R97 reserves the effective address, and where VW exceeds PHYS_ADDR_WIDTH the model keeps its low bits. That no debug
entry is due after a step rests on logs 19 and 20, and a counter held within 64 bits on log 8. -/
def Obligations.StepKeepsCounterAndHiddenState : Prop :=
  ∀ s t, s.counterOk ∧ s.hiddenOk ∧ s.reservationOk → step s = .next t →
    t.counterOk ∧ t.hiddenOk ∧ t.reservationOk

/-! ### Reset and the environment -/

/-- What reset leaves in the reference configuration, by the table of R471: INSTRUCTION COUNTER 0, IMP the
implementation's constant, SYSTEM CONTROL REGISTER 1, every other special register 0, and nothing pending or saved. -/
def Obligations.ResetValues : Prop :=
  State.reset.ic = 0
    ∧ State.reset.spcFile
        = [0x00023E93, 0x0000601F, 0, 0, 0, 0, 0, 0, 0, 0, 0, 0, 0, 0, 0, 1, 0, 0, 0, 0, 0, 0, 0, 0, 0, 0, 0]
    ∧ State.reset.reservation = none ∧ State.reset.irqPending = false ∧ State.reset.nmiPending = false
    ∧ State.reset.waitTimer = 0 ∧ State.reset.waiting = false ∧ State.reset.savedN = none
    ∧ State.reset.savedE = none ∧ State.reset.savedI = none ∧ State.reset.lastWord = 0
    ∧ State.reset.errorState = false ∧ State.reset.errorLine = false ∧ State.reset.syncLine = false

/-- What the events of the environment do that arrive during a step, of an instruction, a pause or, with a reset among
them, the undefined state: they act, one after another in the order of their list, on the state that the instruction
or the pause's clock cycle has left, before the boundary (log 20, log 21); no event leaves that state to the boundary.
A reset that comes alone leaves nothing for the boundary to enter. A system reset leaves instruction 0 next to be
fetched, with every special register (the implementation's own too), hidden item and line at its reset value, and
changes neither memory (the spec's own choice D37) nor the parameters (R470, R471, R473, R387). An interrupt request
and an NMI are marked pending (R420, R429); another agent's write changes its byte of memory and empties a reservation
over that byte and no other (R98); the implementation may give up the reservation (R98, P4); a DSP exception marks its
bit, 16 to 19, and EXI takes the last completed instruction's word (R407, R453; log 21), and the DSP unit may change
one of its registers (R61); the platform may change what it refuses (P5, log 22). -/
def Obligations.ResetRestartsAtZero : Prop :=
  (∀ s u later, s.inputs = [.reset] :: later → EventsMeet s u →
      ∃ t, step s = .next t
        ∧ t = { u with
            banks := t.banks, dsp := t.dsp, fpr := t.fpr, inputs := later, resets := s.resets + 1,
            ic := 0, est := 0, exi := 0, exc := 0, exm := 0, etb := 0, itb := 0, cid := 0, pid := 0, scr := 1, nrp := 0,
            erp := 0, ucr := 0, crp := 0, irp := 0, dcr := 0, spcExtra := List.replicate s.spcExtra.length 0,
            reservation := none, irqPending := false, nmiPending := false, waitTimer := 0, waiting := false,
            savedN := none, savedE := none, savedI := none, lastWord := 0, errorState := false, errorLine := false,
            ir := 0, debugDue := false }
        ∧ t.cfg = s.cfg
        ∧ t.banks.length = s.banks.length ∧ t.dsp.length = s.dsp.length ∧ t.fpr.length = s.fpr.length)
    ∧ (∀ s u now later, s.memoryOk → s.errorState = false ∨ Event.reset ∈ now → s.inputs = now :: later →
        EventsMeet s u → ∃ t, step s = .next t.boundary ∧ EventsDone now { u with inputs := later } t)
    ∧ ∀ s u, s.errorState = false → s.inputs = [] → EventsMeet s u → step s = .next u.boundary

/-! ### Register files and memory -/

/-- A wide read of a register file is made of successive registers, the named one least significant, the last followed
by the first (R24). For a width that is no multiple of the register width, which R24 does not treat, the last register
is used in part: the model's choice (log 9). -/
def Obligations.FileReadIsBitwise : Prop :=
  ∀ (f : List RegBits) (vw n w k : Nat), 0 < vw → k < w → (readFile f vw n w).getLsbD k = bitAt f vw n k

/-- A write of a register file puts every bit of the value where R25 says and keeps every other bit of every register
(R22, R25), for every access that takes no more registers than the file has. For a width that is no multiple of the
register width, which R25 does not treat, the last register is used in part: the model's choice (log 9). -/
def Obligations.FileWriteIsBitwise : Prop :=
  ∀ (f : List RegBits) (vw n w : Nat) (v : BitVec w), 0 < vw → vw ≤ 1024 → f ≠ [] → partsNeeded vw w ≤ f.length →
    FileUpdated f (writeFile f vw n v) vw n v

/-- In a canonical memory, a store of `n` bytes puts each byte of the value where the byte order says, changes no other
byte, and is read back by the load of the same bytes (R84, R85). -/
def Obligations.StoredBytesReadBack : Prop :=
  ∀ (s : State) (addr n v : Nat), s.memoryOk → n ≤ addressSpace s.cfg → v < 2 ^ (8 * n) →
    (s.memWrite addr n v).memRead addr n = v
      ∧ (∀ i, i < n → Memory.byteAt (s.memWrite addr n v).mem ((addr + i) % addressSpace s.cfg)
          = BitVec.ofNat 8 (v / 2 ^ (8 * if s.cfg.bigEndian then n - 1 - i else i)))
      ∧ ∀ a, inBytes s.cfg addr n a = false → Memory.byteAt (s.memWrite addr n v).mem a = Memory.byteAt s.mem a

/-- A load of `n` bytes is below 2^(8n) and its byte `i` is the byte of memory the byte order names (R84). -/
def Obligations.LoadedBytesInOrder : Prop :=
  ∀ (s : State) (addr n : Nat), s.memRead addr n < 2 ^ (8 * n)
    ∧ ∀ i, i < n → s.memRead addr n / 2 ^ (8 * i) % 256
        = (Memory.byteAt s.mem ((addr + if s.cfg.bigEndian then n - 1 - i else i) % addressSpace s.cfg)).toNat

/-! ### Frames of the whole instruction set -/

/-- "Only store instructions change the memory contents": an instruction changes no byte of memory outside those it
stores to, and one that is no store and no store-conditional changes none (R175, R177). -/
def Obligations.OnlyStoresChangeMemory : Prop :=
  ∀ i s t, exec i s = .next t → ∀ a,
    (∀ addr n, storeTarget i s = some (addr, n) → inBytes s.cfg addr n a = false) →
    Memory.byteAt t.mem a = Memory.byteAt s.mem a

/-- `MOV spc, reg` is the only way software writes a special register (R182). Any other instruction keeps EXM, ETB, ITB,
CID, PID, NRP, IRP, UCR, DCR and the implementation's own entries, writes CRP only with IC + 1 (R353), and leaves to the
hardware's writes only this: EST[15:0], with EST[31:16] kept (R205); new bits in EXC, none cleared (R42); EXI the
instruction's own word (R41); ERP IC + 1 (R406); SCR bits 0, 2 and 3, every other bit kept (R49). It changes no GPR bank
but the one in use and nothing of the environment's. -/
def Obligations.OnlyMovWritesSpecialRegisters : Prop :=
  ∀ i s t, exec i s = .next t → (∀ m d x, i ≠ .movSpcReg m d x) →
    t.exm = s.exm ∧ t.etb = s.etb ∧ t.itb = s.itb ∧ t.cid = s.cid ∧ t.pid = s.pid ∧ t.nrp = s.nrp ∧ t.irp = s.irp
      ∧ t.ucr = s.ucr ∧ t.dcr = s.dcr ∧ t.spcExtra = s.spcExtra ∧ (t.crp = s.crp ∨ t.crp = s.icNext)
      ∧ (∀ n, 16 ≤ n → t.est.getLsbD n = s.est.getLsbD n)
      ∧ (∀ n, s.exc.getLsbD n = true → t.exc.getLsbD n = true)
      ∧ (t.exi = s.exi ∨ t.exi = s.ir) ∧ (t.erp = s.erp ∨ t.erp = s.icNext)
      ∧ (∀ n, n ≠ 0 → n ≠ 2 → n ≠ 3 → t.scr.getLsbD n = s.scr.getLsbD n)
      ∧ (∀ b, b ≠ s.bank → t.banks[b]? = s.banks[b]?)
      ∧ t.cfg = s.cfg ∧ t.irqPending = s.irqPending ∧ t.nmiPending = s.nmiPending ∧ t.refused = s.refused
      ∧ t.inputs = s.inputs ∧ t.resets = s.resets

/-- "Data transfer and control instructions do not affect this register": EST is kept by every instruction outside the
arithmetic/logic group (bits 31:30 not 00) but `MOV spc, reg`, which may write EST itself (R35, R38); and a control
instruction (bits 31:30 = 01) changes no GPR, no DSP register, no FPR, no byte of memory and no reservation (R350,
R388): of the registers it may change IC, CRP, SCR and, where it is refused, what the exception writes. -/
def Obligations.TransferAndControlKeepEst : Prop :=
  ∀ i s t, i.wellFormed = true → exec i s = .next t →
    ((∀ m d x, i ≠ .movSpcReg m d x) → field (encode i) 30 2 ≠ 0 → t.est = s.est)
      ∧ (field (encode i) 30 2 = 1 →
          t.banks = s.banks ∧ t.dsp = s.dsp ∧ t.fpr = s.fpr ∧ t.mem = s.mem ∧ t.reservation = s.reservation)

/-- In user mode an instruction either enters exception handling, writing nothing else, or stays in user mode and
changes none of EXM, ETB, ITB, CID, PID, NRP, ERP, the saved slots of exceptions and the NMI, and no bit of SCR but
ENABLE INTERRUPTS, which RETI restores (R377, R441, R442). -/
def Obligations.UserModeIsConfined : Prop :=
  ∀ i s t, s.systemMode = false → exec i s = .next t →
    (∃ raised, (∃ e ∈ raised, s.potent e = true) ∧ Trapped s t raised)
      ∨ (t.systemMode = false ∧ (∀ n, n ≠ 3 → t.scr.getLsbD n = s.scr.getLsbD n) ∧ t.exm = s.exm ∧ t.etb = s.etb
          ∧ t.itb = s.itb ∧ t.cid = s.cid ∧ t.pid = s.pid ∧ t.nrp = s.nrp ∧ t.erp = s.erp ∧ t.savedE = s.savedE
          ∧ t.savedN = s.savedN)

/-- An instruction that enters exception handling has written nothing but what the entry writes (R406, R435): no GPR, no
EST, no memory, no index register, no reservation. -/
def Obligations.TrapsArePrecise : Prop :=
  ∀ i s t saved, exec i s = .next t → t.savedE = some saved → s.savedE ≠ some saved →
    ∃ raised, (∃ e ∈ raised, s.potent e = true) ∧ Trapped s t raised

/-! ### Exceptions, interrupts, the NMI -/

/-- EnterException(rp), the entry sequence (R422): ERP, SAVED_E, SCR bits 0, 2 and 3 and IC are written and nothing else
is. -/
def Obligations.ExceptionEntrySequence : Prop :=
  ∀ (s : State) (rp : DWord),
    s.enterException rp = { s with
        erp := rp, savedE := some ⟨s.scr.getLsbD 0, s.scr.getLsbD 2, s.scr.getLsbD 3⟩,
        scr := (s.enterException rp).scr, ic := BitVec.ofNat 64 (s.etb.toNat % 2 ^ s.cfg.icWidth) }
      ∧ ScrEntered s.scr (s.enterException rp).scr

/-- What is entered at an instruction boundary, in the order of R432: the NMI (R420), the debug entry that is due
(R412), a marked exception other than number 1 that is potent (R433), a pending potent interrupt (R428), else nothing;
and nothing in a pause or in the undefined state. That the NMI's entry drops a debug entry due at the same boundary is
the model's choice (log 19). -/
def Obligations.BoundaryEntersHighestEvent : Prop :=
  ∀ s : State,
    let saved : SavedBits := ⟨s.scr.getLsbD 0, s.scr.getLsbD 2, s.scr.getLsbD 3⟩
    let t := s.boundary
    let idle := s.waiting = true ∨ s.errorState = true
    let marked := s.scr.getLsbD 2 = true ∧ ∃ n, n < 64 ∧ n ≠ 1 ∧ s.exc.getLsbD n = true ∧ s.exm.getLsbD n = false
    (idle → t = s)
      ∧ (¬idle → s.nmiPending = true →
          t = { s with
              nmiPending := false, nrp := s.ic, exc := s.exc ||| 1#64, exi := s.lastWord, savedN := some saved,
              scr := t.scr, ic := wrapIc s.cfg s.etb, debugDue := false }
            ∧ ScrEntered s.scr t.scr)
      ∧ (¬idle → s.nmiPending = false → s.debugDue = true ∨ marked →
          t = { s with
              erp := s.ic, savedE := some saved, scr := t.scr, ic := wrapIc s.cfg s.etb, debugDue := false }
            ∧ ScrEntered s.scr t.scr)
      ∧ (¬idle → s.nmiPending = false → s.debugDue = false → ¬marked →
          s.irqPending = true → s.scr.getLsbD 3 = true →
          t = { s with
              irqPending := false, irp := s.ic, savedI := some true, scr := t.scr, ic := wrapIc s.cfg s.itb }
            ∧ ∀ n, t.scr.getLsbD n = (if n = 0 then true else if n = 3 then false else s.scr.getLsbD n))
      ∧ (¬idle → s.nmiPending = false → s.debugDue = false → ¬marked →
          s.irqPending = false ∨ s.scr.getLsbD 3 = false → t = s)

/-- After one entry nothing is left due: examining a boundary again finds nothing to enter, so no step leaves an event
due (R432, R433). An entry disables what ranks below it, but that an NMI's entry leaves no debug entry due is the
model's choice (log 19), and that a step ends with a boundary is too (log 20). -/
def Obligations.BoundarySettlesInOneEntry : Prop :=
  (∀ s : State, s.boundary.boundary = s.boundary)
    ∧ ∀ s t, step s = .next t → t.boundary = t

/-- The matching return gives back SCR and the pointer, minus 1 with P = 1, after an exception entry and after an NMI
entry; after an interrupt entry it gives back ENABLE INTERRUPTS and leaves system mode set (R375, R377 to R379, R427,
R428). -/
def Obligations.ReturnUndoesEntry : Prop :=
  ∀ (s : State) (rp : DWord) (p : Bool),
    ((s.enterException rp).leaveException p).scr = s.scr
      ∧ ((s.enterException rp).leaveException p).ic = wrapIc s.cfg (if p then rp - 1 else rp)
      ∧ ((s.enterException rp).leaveException p).savedE = none
      ∧ (s.enterNmi.leaveNmi p).scr = s.scr
      ∧ (s.enterNmi.leaveNmi p).ic = wrapIc s.cfg (if p then s.ic - 1 else s.ic)
      ∧ (s.enterNmi.leaveNmi p).savedN = none
      ∧ (∀ n, (s.enterInterrupt.leaveInterrupt p).scr.getLsbD n = if n = 0 then true else s.scr.getLsbD n)
      ∧ (s.enterInterrupt.leaveInterrupt p).ic = wrapIc s.cfg (if p then s.ic - 1 else s.ic)
      ∧ (s.enterInterrupt.leaveInterrupt p).savedI = none

/-- RET, RETI, RETE and RETN (R375 to R379): IC is the pointer's low IC_WIDTH bits, minus 1 with P = 1. RET changes
nothing else; RETI restores SCR bit 3 from SAVED_I in either mode; RETE and RETN, in system mode, restore SCR bits 0, 2
and 3 from SAVED_E and SAVED_N; an empty slot changes no SCR bit; the slot is emptied. -/
def Obligations.ReturnsComplete : Prop :=
  ∀ (p : Bool) (s : State), s.lacks = false →
    let target := fun rp : DWord => wrapIc s.cfg (if p then rp - 1 else rp)
    let done := fun t : State => { s with
      ic := t.ic, scr := t.scr, exc := t.exc, exi := t.exi, lastWord := t.lastWord, debugDue := t.debugDue }
    let restored := fun (slot : Option SavedBits) (scr : Word) =>
      ∀ n, scr.getLsbD n = (match slot, n with
        | some b, 0 => b.systemMode
        | some b, 2 => b.exceptions
        | some b, 3 => b.interrupts
        | _, _ => s.scr.getLsbD n)
    (∃ t, exec (.ret p) s = .next t ∧ t = done t ∧ t.ic = target s.crp ∧ t.scr = s.scr ∧ Completed s t [])
      ∧ (∃ t, exec (.reti p) s = .next t ∧ t = { done t with savedI := none } ∧ t.ic = target s.irp
          ∧ (∀ n, t.scr.getLsbD n = if n = 3 then s.savedI.getD (s.scr.getLsbD 3) else s.scr.getLsbD n)
          ∧ Completed s t [])
      ∧ (s.systemMode = true →
          ∃ t, exec (.rete p) s = .next t ∧ t = { done t with savedE := none } ∧ t.ic = target s.erp
            ∧ restored s.savedE t.scr ∧ Completed s t [])
      ∧ (s.systemMode = true →
          ∃ t, exec (.retn p) s = .next t ∧ t = { done t with savedN := none } ∧ t.ic = target s.nrp
            ∧ restored s.savedN t.scr ∧ Completed s t [])

/-- In user mode RETE, RETN and a MOV to the special register file that touches an entry user mode may not write, the
first entry or one reached by circularity, raise SYSTEM INSTRUCTION, whatever else holds (R32, R414, R441, R443): spc0
to spc19, and of the implementation's own entries those it makes read-only, in user mode alone or in both. A MOV to a
special register that passes the earlier checks raises, in system mode, UNIMPLEMENTED GPR BANK when it would switch to
a bank that does not exist, writing no bit of SCR (R49, R415), and INVALID OPERATION when it touches an entry no mode
may write (R32, R418): spc0, spc1, and those the implementation makes so; one to an entry at or above NUM_SPC raises
UNIMPLEMENTED REGISTER in either mode (R32, R417). That NUM_SPC counts 27 entries and the implementation's own after
them, with the rights it gives them, is log 6; that a wide write is checked entry by entry is log 13; the order of the
checks is log 12, and none of these clauses depends on it. -/
def Obligations.SystemResourcesAreProtected : Prop :=
  ∀ (s : State) (m : MMode) (p : Bool) (d x : Nat),
    let refused := fun (i : Instr) (e : Exc) => ∃ t, exec i s = .next t ∧ Refused s t e false
    let bank := (s.writeSpc d (s.readGpr x m.width)).bank
    let parts := partsNeeded s.cfg.spcWidth m.width
    let touches := fun n => ∃ j, j < parts ∧ (d + j) % s.spcFile.length = n
    let ready := GprReady s m.width [x] ∧ s.hasTransfer m = true ∧ parts ≤ s.spcFile.length
    (s.systemMode = false →
        refused (.rete p) .systemInstruction ∧ refused (.retn p) .systemInstruction
          ∧ (d < s.spcFile.length →
            (∃ n, touches n ∧ (n ≤ 19 ∨ 27 ≤ n ∧ (n ∈ s.cfg.spcUserReadOnly ∨ n ∈ s.cfg.spcReadOnly))) →
            refused (.movSpcReg m d x) .systemInstruction))
      ∧ (ready → s.systemMode = true → d < s.spcFile.length → s.banks.length ≤ bank →
        refused (.movSpcReg m d x) .unimplementedGprBank)
      ∧ (ready → s.systemMode = true → d < s.spcFile.length →
        (∃ n, touches n ∧ (n ≤ 1 ∨ 27 ≤ n ∧ n ∈ s.cfg.spcReadOnly)) → bank < s.banks.length →
        refused (.movSpcReg m d x) .invalidOperation)
      ∧ (ready → s.spcFile.length ≤ d → refused (.movSpcReg m d x) .unimplementedRegister)

/-- A valid instruction the implementation lacks raises UNIMPLEMENTED INSTRUCTION (R11, R134, R287, R416). An
arithmetic/logic one sets EST[1] when skipped (R35, the spec's own choice D6: log 40): an integer operation above the
widest mode, MUL, MAD and MSU without a multiplier, DIV without a divider, every FP instruction without an FPU, FF2I
and FI2F above the widest mode, FEXT and FSQZ of a format the FPU does not convert. A transfer above MAX_TRANSFER, MOV
to a special register among them where no check that ranks before holds (log 12), and a branch above the widest mode
do not. Each of these is lacking too where an access it makes needs more registers than its file has (U3, the spec's own
choice D39; log 10): the operand, the double-width result of MUL, MAD and MSU, the FP operand, FCMP's 16 bits of EST,
the integer of FF2I and FI2F in its own file (log 18), either side of a transfer (which bank number such a MOV to a
special register names is log 48). A word the implementation leaves out
beyond these (log 11) is refused whatever its instruction: RETE and RETN where system mode lets them pass. -/
def Obligations.LackingInstructionsAreRefused : Prop :=
  ∀ (s : State) (m : MMode) (u a p : Bool) (d r n : Nat) (imm : BitVec 18) (o : Operand2) (o3 : Operand3)
    (ad : Addressing),
    let lacking := fun (i : Instr) (est1 : Bool) =>
      ∃ t, exec i s = .next t ∧ Refused s t .unimplementedInstruction est1
    let wideGpr := TooWide s.gpr s.vw m.width
    let wideFp := TooWide s.fpFile s.fpPart s.cfg.fp.width
    (s.hasMode m = false ∨ wideGpr → ∀ i ∈ integerForms m u d o, lacking i true)
      ∧ (s.hasMode m = false ∨ s.cfg.hasMul = false ∨ TooWide s.gpr s.vw (2 * m.width) →
          lacking (o.instr (.mulReg m u d) (.mulImm m u d)) true
            ∧ lacking (o3.instr (.madReg m u d r) (.madImm m u d r)) true
            ∧ lacking (o3.instr (.msuReg m u d r) (.msuImm m u d r)) true)
      ∧ (s.hasMode m = false ∨ s.cfg.hasDiv = false ∨ wideGpr →
          lacking (o.instr (.divReg m u d) (.divImm m u d)) true)
      ∧ (s.cfg.fpuType = 0 ∨ wideFp → ∀ q ∈ floatForms d r n, lacking q.1 true)
      ∧ (TooWide s.fpFile s.fpPart 16 → lacking (.fcmp d r) true)
      ∧ (s.cfg.fpuType = 0 ∨ s.hasMode m = false ∨ wideFp ∨ TooWide s.intFile s.intPart m.width →
          lacking (.ff2i m u d) true ∧ lacking (.fi2f m u d) true)
      ∧ (∀ q ∈ formatForms d,
          s.cfg.fpuType = 0 ∨ q.2.2 ∉ s.cfg.fpFormats ∨ s.cfg.fp.width < q.2.2.width ∨ wideFp →
          lacking q.1 true ∧ lacking q.2.1 true)
      ∧ (s.hasTransfer m = false ∨ wideGpr → ∀ i ∈ memoryForms m d ad ++ [Instr.movRegReg m d r, .movRegSpc m d r,
              .movRegDsp m d r, .movDspReg m d r, .movRegFpr m d r, .movFprReg m d r, .loadImm m u d imm],
            lacking i false)
      ∧ (TooWide s.spcFile s.cfg.spcWidth m.width → lacking (.movRegSpc m d r) false)
      ∧ (TooWide s.dsp s.dspWidth m.width → lacking (.movRegDsp m d r) false ∧ lacking (.movDspReg m d r) false)
      ∧ (TooWide s.fpr s.cfg.fprWidth m.width → lacking (.movRegFpr m d r) false ∧ lacking (.movFprReg m d r) false)
      ∧ (s.hasTransfer m = false ∨ s.lacks = true ∨ wideGpr ∨ TooWide s.spcFile s.cfg.spcWidth m.width →
          (s.systemMode = true
            ∨ ∀ j, j < partsNeeded s.cfg.spcWidth m.width → userReadOnly s.cfg ((d + j) % s.spcFile.length) = false) →
          (s.writeSpc d (s.readGpr r m.width)).bank < s.banks.length → lacking (.movSpcReg m d r) false)
      ∧ (s.hasMode m = false ∨ wideGpr → ∀ (c : Branch) (g : Nat) (tgt : Target 14),
          lacking (c.instr m a p g tgt) false)
      ∧ (s.lacks = true → ∀ i : Instr, i.wellFormed = true → (∀ m d x, i ≠ .movSpcReg m d x) →
          (s.systemMode = true ∨ ∀ p, i ≠ .rete p ∧ i ≠ .retn p) → lacking i (decide (field (encode i) 30 2 = 0)))

/-- A register specifier at or above the size of its file raises UNIMPLEMENTED REGISTER, in an instruction that is
otherwise implemented (R27, R135, R417): every GPR an integer or fused instruction, a memory transfer, a load
immediate, a branch, a jump or WAIT uses; every register an FP instruction uses, for FF2I and FI2F in either of the
two files they use (log 18); and both registers of every transfer between files, a DSP file or FPR file that is absent
having size 0. MOV to the special register file has its source checked here, in system mode, and in user mode where
every entry it touches may be written there; its destination is in SystemResourcesAreProtected. -/
def Obligations.MissingRegistersAreRefused : Prop :=
  ∀ (s : State) (m : MMode) (u a p : Bool) (d r n : Nat) (imm : BitVec 18) (o : Operand2) (o3 : Operand3)
    (ad : Addressing),
    let missing := fun (i : Instr) => ∃ t, exec i s = .next t ∧ Refused s t .unimplementedRegister false
    let fits := fun (f : List RegBits) (vw : Nat) => f = [] ∨ partsNeeded vw m.width ≤ f.length
    (GprReady s m.width [] → s.hasMode m = true → (∃ q ∈ d :: o.registers, s.gpr.length ≤ q) →
        (∀ i ∈ integerForms m u d o, missing i)
          ∧ (s.cfg.hasDiv = true → missing (o.instr (.divReg m u d) (.divImm m u d))))
      ∧ (GprReady s (2 * m.width) [] → s.hasMode m = true → s.cfg.hasMul = true →
        ((∃ q ∈ d :: o.registers, s.gpr.length ≤ q) → missing (o.instr (.mulReg m u d) (.mulImm m u d)))
          ∧ ((∃ q ∈ d :: r :: o3.registers, s.gpr.length ≤ q) →
            missing (o3.instr (.madReg m u d r) (.madImm m u d r))
              ∧ missing (o3.instr (.msuReg m u d r) (.msuImm m u d r))))
      ∧ (GprReady s m.width [] → s.hasTransfer m = true → (∃ q ∈ d :: ad.registers, s.gpr.length ≤ q) →
        ∀ i ∈ memoryForms m d ad, missing i)
      ∧ (GprReady s m.width [] → s.hasMode m = true → ∀ (c : Branch) (g : Nat) (tgt : Target 14),
        (∃ q ∈ g :: tgt.registers, s.gpr.length ≤ q) → missing (c.instr m a p g tgt))
      ∧ (GprReady s 0 [] → s.gpr.length ≤ d → missing (.jmpReg a p d) ∧ missing (.waitReg d))
      ∧ (FpReady s (max s.cfg.fp.width 16) [] → ∀ q ∈ floatForms d r n, (∃ x ∈ q.2, s.fpFile.length ≤ x) → missing q.1)
      ∧ (FpReady s s.cfg.fp.width [] → s.hasMode m = true → fits s.intFile s.intPart →
        s.fpFile.length ≤ d ∨ s.intFile.length ≤ d → missing (.ff2i m u d) ∧ missing (.fi2f m u d))
      ∧ (FpReady s s.cfg.fp.width [] → s.fpFile.length ≤ d → ∀ q ∈ formatForms d,
        q.2.2 ∈ s.cfg.fpFormats → q.2.2.width ≤ s.cfg.fp.width → missing q.1 ∧ missing q.2.1)
      ∧ (GprReady s m.width [] → s.hasTransfer m = true →
        (s.gpr.length ≤ d ∨ s.gpr.length ≤ r → missing (.movRegReg m d r))
          ∧ (s.gpr.length ≤ d → missing (.loadImm m u d imm))
          ∧ (fits s.spcFile s.cfg.spcWidth →
            (s.gpr.length ≤ d ∨ s.spcFile.length ≤ r → missing (.movRegSpc m d r))
              ∧ ((s.systemMode = true ∨ ∀ j, j < partsNeeded s.cfg.spcWidth m.width →
                  userReadOnly s.cfg ((d + j) % s.spcFile.length) = false) →
                s.gpr.length ≤ r → missing (.movSpcReg m d r)))
          ∧ (fits s.dsp s.dspWidth →
            (s.gpr.length ≤ d ∨ s.dsp.length ≤ r → missing (.movRegDsp m d r))
              ∧ (s.dsp.length ≤ d ∨ s.gpr.length ≤ r → missing (.movDspReg m d r)))
          ∧ (fits s.fpr s.cfg.fprWidth →
            (s.gpr.length ≤ d ∨ s.fpr.length ≤ r → missing (.movRegFpr m d r))
              ∧ (s.fpr.length ≤ d ∨ s.gpr.length ≤ r → missing (.movFprReg m d r))))

/-- A memory transfer the platform refuses writes no register, no memory and no reservation, marks D SYSTEM BUS ERROR,
signals the error line and goes on (R178, where writing nothing is the spec's own choice U20: log 23); the
store-conditional only where it would store, for which the low PHYS_ADDR_WIDTH bits of the address are compared
(log 42). -/
def Obligations.DataBusErrorWritesNothing : Prop :=
  ∀ (s : State) (m : MMode) (d : Nat) (ad : Addressing),
    GprReady s m.width (d :: ad.registers) → s.hasTransfer m = true →
    let raised := fun (i : Instr) => ∃ t, exec i s = .next t
      ∧ t = { s with
          ic := s.icNext, exc := t.exc, exi := s.ir, lastWord := s.ir, errorLine := true, debugDue := t.debugDue }
      ∧ Completed s t [.dSystemBusError]
    (s.busError .load (ad.address m s) m.bytes = true → raised (loadForm m d ad) ∧ raised (loadLockedForm m d ad))
      ∧ (s.busError .store (ad.address m s) m.bytes = true →
          raised (storeForm m d ad)
            ∧ (s.reservation = some (ad.address m s, m.bytes) → raised (storeCondForm m d ad)))

/-- A fetch the platform refuses marks I SYSTEM BUS ERROR, writes EXI with the last completed instruction's word and
signals the error line; potent, it enters handling with ERP the instruction that could not be fetched; impotent, it
leaves the undefined state (R419; ERP and EXI as the spec's own choice D20), in which every further step stops until a
reset arrives (log 25). The step then ends as every step does (log 20); that an NMI arriving in it interrupts the
handler just entered is log 45. -/
def Obligations.FetchBusErrorTrapsOrStops : Prop :=
  (∀ s : State, s.errorState = false → s.waiting = false →
    s.boundary.busError .fetch (4 * s.boundary.ic.toNat) 4 = true →
    ∃ t : State, step s = .next t.arrive.boundary ∧ ExcMarked s.boundary.exc t.exc [.iSystemBusError]
      ∧ if s.boundary.potent .iSystemBusError then
          t = { s.boundary with
              exc := t.exc, exi := s.boundary.lastWord, errorLine := true, erp := s.boundary.ic,
              savedE := some ⟨s.boundary.scr.getLsbD 0, s.boundary.scr.getLsbD 2, s.boundary.scr.getLsbD 3⟩,
              scr := t.scr, ic := wrapIc s.cfg s.boundary.etb }
            ∧ ScrEntered s.boundary.scr t.scr
        else
          t = { s.boundary with exc := t.exc, exi := s.boundary.lastWord, errorLine := true, errorState := true })
    ∧ ∀ s : State, s.errorState = true → s.inputs = [] → step s = .fault .undefinedExecution

/-- The undefined state of execution is the only stop: a step answers a next state unless it starts in the undefined
state and no reset arrives, and no instruction is refused (R419, U15; that such a step faults is log 25). -/
def Obligations.OnlyTheUndefinedStateStops : Prop :=
  (∀ i s, ∃ t, exec i s = .next t)
    ∧ ∀ s : State,
        (s.errorState = true → (∀ es ∈ s.inputs.head?, Event.reset ∉ es) → step s = .fault .undefinedExecution)
        ∧ (s.errorState = false ∨ (∃ es ∈ s.inputs.head?, Event.reset ∈ es) → ∃ t, step s = .next t)

/-! ### WAIT -/

/-- WAIT starts a pause: the timer takes the unsigned value, cut to the timer's width (the spec's own choice D33), and
IC is not changed (R382, R383). That WAIT has not completed yet, so LAST_WORD stays, is the model's reading (log 26). -/
def Obligations.WaitStartsPause : Prop :=
  ∀ (s : State), s.lacks = false →
    (∀ n : BitVec 20, exec (.waitImm n) s
        = .next { s with waitTimer := n.toNat % 2 ^ s.cfg.waitTimerWidth, waiting := true })
      ∧ ∀ l, l < s.gpr.length → exec (.waitReg l) s
        = .next { s with
            waitTimer := (s.readGpr l s.vw).toNat % 2 ^ s.cfg.waitTimerWidth, waiting := true }

/-- One clock cycle of a paused core with no event arriving in it (R385, R386): a pending NMI or a pending potent
interrupt ends the pause, with the timer 0 and IC + 1, and the boundary follows; a timer of 0 pauses on; a timer of 1
ends the pause; any other timer counts down. That a clock cycle is a step is log 20, that WAIT completes, and writes
LAST_WORD, when its pause ends is log 26. -/
def Obligations.PausedCycle : Prop :=
  ∀ s : State, s.inputs = [] → s.errorState = false → s.waiting = true →
    let broken := s.nmiPending = true ∨ s.irqPending = true ∧ s.scr.getLsbD 3 = true
    (broken ∨ s.waitTimer = 1 →
        ∃ t, step s = .next t.boundary ∧ Completed s t []
          ∧ t = { s with
              waiting := false, waitTimer := 0, ic := s.icNext, exc := t.exc, exi := t.exi, lastWord := t.lastWord,
              debugDue := t.debugDue })
      ∧ (¬broken → s.waitTimer = 0 → step s = .next s)
      ∧ (¬broken → 2 ≤ s.waitTimer → step s = .next { s with waitTimer := s.waitTimer - 1 })

/-- A definite pause of `t` lasts `t` clock cycles where no event ends it: after `t - 1` of them the core still waits
at the WAIT, and after the last one the pause has ended with IC + 1 (R384, R385), out of debug mode and with no marked
exception potent. That a clock cycle is a step is log 20. -/
def Obligations.DefinitePauseLastsItsCycles : Prop :=
  ∀ (s : State) (k : Nat), s.inputs = [] → s.errorState = false → s.waiting = true → s.waitTimer = k + 1 →
    s.nmiPending = false → (s.irqPending && s.interruptsEnabled) = false → s.debugMode = false → s.debugDue = false →
    s.exceptionPending = false →
    Host.Core.run Sys2Proof.core k s = .next { s with waitTimer := 1 }
      ∧ Host.Core.run Sys2Proof.core (k + 1) s
          = .next { s with waitTimer := 0, waiting := false, ic := s.icNext, lastWord := s.ir }

/-! ### Data transfer -/

/-- A load and a load-locked, in each of the eleven address forms (R171, R174, R176, R97): the index register is
updated first (R172, the spec's own choice D21), then the destination takes the bytes at the effective address;
load-locked makes the reservation. That the reservation holds the low PHYS_ADDR_WIDTH bits of R171's sum, where the sum
has more, is the model's choice (log 42). -/
def Obligations.LoadsComplete : Prop :=
  ∀ (locked : Bool) (m : MMode) (d : Nat) (a : Addressing) (s : State),
    GprReady s m.width (d :: a.registers) → s.hasTransfer m = true →
    s.busError .load (a.address m s) m.bytes = false →
    (a.address m s : Int) = effectiveAddress a m s
      ∧ ∃ t g, exec (if locked then loadLockedForm m d a else loadForm m d a) s = .next t
        ∧ IndexUpdated a m s g
        ∧ FileUpdated g t.gpr s.vw d (BitVec.ofNat m.width (s.memRead (a.address m s) m.bytes))
        ∧ t = { s with
            banks := s.banks.set s.bank t.gpr,
            reservation := if locked then some (a.address m s, m.bytes) else s.reservation,
            ic := s.icNext, exc := t.exc, exi := t.exi, lastWord := t.lastWord, debugDue := t.debugDue }
        ∧ Completed s t []

/-- A store, in each of the eleven address forms (R171, R172, R175): the destination register's value, read before the
index update, is stored at the effective address; of the registers only the index register may change. Of a store of
more bytes than the address space has, the byte at the highest offset stays (log 44). -/
def Obligations.StoresComplete : Prop :=
  ∀ (m : MMode) (d : Nat) (a : Addressing) (s : State),
    GprReady s m.width (d :: a.registers) → s.hasTransfer m = true →
    s.busError .store (a.address m s) m.bytes = false →
    (a.address m s : Int) = effectiveAddress a m s
      ∧ ∃ t, exec (storeForm m d a) s = .next t
        ∧ IndexUpdated a m s t.gpr
        ∧ t = { s with
            banks := s.banks.set s.bank t.gpr,
            mem := (s.memWrite (a.address m s) m.bytes (s.readGpr d m.width).toNat).mem,
            ic := s.icNext, exc := t.exc, exi := t.exi, lastWord := t.lastWord, debugDue := t.debugDue }
        ∧ (∀ x, inBytes s.cfg (a.address m s) m.bytes x = false → Memory.byteAt t.mem x = Memory.byteAt s.mem x)
        ∧ Completed s t []

/-- A store-conditional, in each of the eleven address forms (R98, R99, R177): it stores if and only if the
reservation is over its own address and width; the reservation is emptied, the index register updated, and the
destination takes 1 or 0 at the mode's width. R99 and R177 compare the effective address; that the low PHYS_ADDR_WIDTH
bits of R171's sum are what is compared, where the sum has more, is the model's choice (log 42). Of a store of more
bytes than the address space has, the byte at the highest offset stays (log 44). -/
def Obligations.StoreConditionalsComplete : Prop :=
  ∀ (m : MMode) (d : Nat) (a : Addressing) (s : State),
    GprReady s m.width (d :: a.registers) → s.hasTransfer m = true →
    (s.reservation = some (a.address m s, m.bytes) → s.busError .store (a.address m s) m.bytes = false) →
    ∃ t g, exec (storeCondForm m d a) s = .next t
      ∧ IndexUpdated a m s g
      ∧ FileUpdated g t.gpr s.vw d
          (if s.reservation = some (a.address m s, m.bytes) then (1#m.width) else (0#m.width))
      ∧ t = { s with
          banks := s.banks.set s.bank t.gpr, reservation := none,
          mem := if s.reservation = some (a.address m s, m.bytes)
            then (s.memWrite (a.address m s) m.bytes (s.readGpr d m.width).toNat).mem else s.mem,
          ic := s.icNext, exc := t.exc, exi := t.exi, lastWord := t.lastWord, debugDue := t.debugDue }
      ∧ (∀ x, inBytes s.cfg (a.address m s) m.bytes x = false → Memory.byteAt t.mem x = Memory.byteAt s.mem x)
      ∧ Completed s t []

/-- The transfers into a GPR (R180, R181, R183, R185, R188): from a GPR, a special register in either mode, a DSP
register, an FPR, and an immediate, sign-extended for U = 0 and zero-extended for U = 1; only the low W bits at the
destination change. The transfers from a GPR to a DSP register (R184) and to an FPR (R186) change that file at the
destination only. Nothing else changes but what completing writes. -/
def Obligations.RegisterMovesComplete : Prop :=
  ∀ (m : MMode) (u : Bool) (d x : Nat) (imm : BitVec 18) (s : State), s.cfg.inRange = true → s.hasTransfer m = true →
    let unitFrame := fun t : State => { s with
      dsp := t.dsp, fpr := t.fpr, ic := s.icNext, exc := t.exc, exi := t.exi, lastWord := t.lastWord,
      debugDue := t.debugDue }
    (GprReady s m.width [d] →
        (x < s.gpr.length →
          ∃ t, exec (.movRegReg m d x) s = .next t ∧ MovedToGpr s t d (readFile s.gpr s.vw x m.width))
          ∧ (x < s.spcFile.length → partsNeeded s.cfg.spcWidth m.width ≤ s.spcFile.length →
            ∃ t, exec (.movRegSpc m d x) s = .next t
              ∧ MovedToGpr s t d (readFile s.spcFile s.cfg.spcWidth x m.width))
          ∧ (x < s.dsp.length → partsNeeded s.dspWidth m.width ≤ s.dsp.length →
            ∃ t, exec (.movRegDsp m d x) s = .next t ∧ MovedToGpr s t d (readFile s.dsp s.dspWidth x m.width))
          ∧ (x < s.fpr.length → partsNeeded s.cfg.fprWidth m.width ≤ s.fpr.length →
            ∃ t, exec (.movRegFpr m d x) s = .next t ∧ MovedToGpr s t d (readFile s.fpr s.cfg.fprWidth x m.width))
          ∧ ∃ t, exec (.loadImm m u d imm) s = .next t
            ∧ MovedToGpr s t d (if u then imm.setWidth m.width else imm.signExtend m.width))
      ∧ (GprReady s m.width [x] →
        (d < s.dsp.length → partsNeeded s.dspWidth m.width ≤ s.dsp.length →
          ∃ t, exec (.movDspReg m d x) s = .next t ∧ t = unitFrame t ∧ t.fpr = s.fpr ∧ Completed s t []
            ∧ FileUpdated s.dsp t.dsp s.dspWidth d (s.readGpr x m.width))
          ∧ (s.cfg.hasFpr = true → d < s.fpr.length → partsNeeded s.cfg.fprWidth m.width ≤ s.fpr.length →
            ∃ t, exec (.movFprReg m d x) s = .next t ∧ t = unitFrame t ∧ t.dsp = s.dsp ∧ Completed s t []
              ∧ FileUpdated s.fpr t.fpr s.cfg.fprWidth d (s.readGpr x m.width)))

/-- A MOV to the special register file whose touched entries are all writable in the current mode and which names no
missing bank (R30, R32, R43, R47, R49, R182): the entries take the value's bits and every other bit of the file is
kept, but EXM[0], which stays 0; a write that touches PROCESS ID goes to instruction 0, any other to IC + 1; nothing
outside the file changes but what completing writes. `f` is the file as the write leaves it, before the DEBUG MODE
EXCEPTION that completing may mark in debug mode as the write leaves it (R49, R482), whose entry is due as judged on
the SCR and EXM of before the write (R412, the spec's own choice D34). The entries from 27 on are the implementation's
own, with the rights it gives them (R57, log 6). PROCESS ID takes all 64 bits, those above PID_WIDTH as storage: the
model's reading (log 29). The rights and the bank of a wide write are those of every entry it touches (log 13). -/
def Obligations.MoveToSpecialRegisterCompletes : Prop :=
  ∀ (m : MMode) (d x : Nat) (s : State), s.cfg.inRange = true → GprReady s m.width [x] → s.hasTransfer m = true →
    partsNeeded 32 m.width ≤ s.spcFile.length → d < s.spcFile.length →
    (∀ j, j < partsNeeded 32 m.width → (if s.systemMode then 2 else 20) ≤ (d + j) % s.spcFile.length
      ∧ (27 ≤ (d + j) % s.spcFile.length → (d + j) % s.spcFile.length ∉ s.cfg.spcReadOnly
        ∧ (s.systemMode = false → (d + j) % s.spcFile.length ∉ s.cfg.spcUserReadOnly))) →
    (s.writeSpc d (s.readGpr x m.width)).bank < s.banks.length →
    let touches := fun n => ∃ j, j < partsNeeded 32 m.width ∧ (d + j) % s.spcFile.length = n
    ∃ t f, exec (.movSpcReg m d x) s = .next t
      ∧ FileUpdated s.spcFile f 32 d (s.readGpr x m.width)
      ∧ (touches 13 ∨ touches 14 → t.ic = 0) ∧ (¬(touches 13 ∨ touches 14) → t.ic = s.icNext)
      ∧ t.est = entryWord f 2 ∧ t.etb = entryPair f 8 ∧ t.itb = entryPair f 10 ∧ t.cid = entryWord f 12
      ∧ t.pid = entryPair f 13 ∧ t.scr = entryWord f 15 ∧ t.nrp = entryPair f 16 ∧ t.erp = entryPair f 18
      ∧ t.ucr = entryWord f 20 ∧ t.crp = entryPair f 21 ∧ t.irp = entryPair f 23 ∧ t.dcr = entryPair f 25
      ∧ t.spcExtra.length = s.spcExtra.length ∧ (∀ k, t.spcExtra.getD k 0 = entryWord f (27 + k))
      ∧ (∀ n, n ≠ 0 → t.exm.getLsbD n = (entryPair f 6).getLsbD n)
      ∧ (touches 6 → t.exm.getLsbD 0 = false) ∧ (¬touches 6 → t.exm.getLsbD 0 = s.exm.getLsbD 0)
      ∧ ExcMarked (entryPair f 4) t.exc (if t.debugMode then [.debugMode] else [])
      ∧ t.exi = (if t.debugMode then s.ir else entryWord f 3)
      ∧ t.debugDue = (if t.debugMode then s.exceptionsEnabled && !s.exm.getLsbD 1 else s.debugDue)
      ∧ t = { s with
          ic := t.ic, est := t.est, exi := t.exi, exc := t.exc, exm := t.exm, etb := t.etb, itb := t.itb, cid := t.cid,
          pid := t.pid, scr := t.scr, nrp := t.nrp, erp := t.erp, ucr := t.ucr, crp := t.crp, irp := t.irp,
          dcr := t.dcr, spcExtra := t.spcExtra, lastWord := s.ir, debugDue := t.debugDue }

/-! ### Integer arithmetic -/

/-- ADD and SUB, register and immediate, signed and unsigned (R201, R203 to R206, R215): the exact result where the mode
can hold it, else OVERFLOW and, impotent, the largest number of the mode, below the range too (the spec's own choice
D22); the flags of IntEST. -/
def Obligations.AddSubComplete : Prop :=
  ∀ (m : MMode) (u : Bool) (d : Nat) (o : Operand2) (s : State),
    GprReady s m.width (d :: o.registers) → s.hasMode m = true →
    let a := intValue u (s.readGpr d m.width)
    let b := intValue u (o.value s m u)
    let done := fun (i : Instr) (r : Int) (ov : Bool) =>
      (ov = true → s.potent .overflow = false) →
      let res : BitVec m.width :=
        if ov then (if u then BitVec.allOnes m.width else BitVec.ofNat m.width (2 ^ (m.width - 1) - 1))
        else BitVec.ofInt m.width r
      ∃ t, exec i s = .next t
        ∧ IntDone s t d res (if ov then [.overflow] else []) (intBits a b res.msb (decide (res = 0)) ov false)
    done (o.instr (.addReg m u d) (.addImm m u d)) (a + b)
        (if u then decide (2 ^ m.width - 1 < a + b)
         else decide (a + b < -2 ^ (m.width - 1) ∨ 2 ^ (m.width - 1) - 1 < a + b))
      ∧ done (o.instr (.subReg m u d) (.subImm m u d)) (a - b)
        (if u then decide (a - b < 0)
         else decide (a - b < -2 ^ (m.width - 1) ∨ 2 ^ (m.width - 1) - 1 < a - b))

/-- MUL, MAD and MSU, register and immediate, signed and unsigned (R207, R215, R331, R332, R335, R336): the low 2W bits
of the exact product, product and sum, product and difference, at 2W bits from the destination on; no exception; the
flags compare the first two operands. The product is exact, and so is the sum. -/
def Obligations.ProductsComplete : Prop :=
  ∀ (m : MMode) (u : Bool) (d r : Nat) (o : Operand2) (o3 : Operand3) (s : State),
    s.hasMode m = true → s.cfg.hasMul = true →
    let a := intValue u (s.readGpr d m.width)
    let done := fun (i : Instr) (b v : Int) =>
      let res := BitVec.ofInt (2 * m.width) v
      ∃ t, exec i s = .next t
        ∧ IntDone s t d res [] (intBits a b res.msb (decide (res = 0)) false false)
    (GprReady s (2 * m.width) (d :: o.registers) →
        let b := intValue u (o.value s m u)
        done (o.instr (.mulReg m u d) (.mulImm m u d)) b (a * b)
          ∧ intValue u (BitVec.ofInt (2 * m.width) (a * b)) = a * b)
      ∧ (GprReady s (2 * m.width) (d :: r :: o3.registers) →
        let b := intValue u (s.readGpr r m.width)
        let c := intValue u (o3.value s m u)
        done (o3.instr (.madReg m u d r) (.madImm m u d r)) b (a * b + c)
          ∧ done (o3.instr (.msuReg m u d r) (.msuImm m u d r)) b (a * b - c)
          ∧ intValue u (BitVec.ofInt (2 * m.width) (a * b + c)) = a * b + c)

/-- DIV, register and immediate, signed and unsigned (R208, R209, R212): the quotient at the destination, then the
remainder at the register after the quotient's, which wins where the two overlap (log 38); division by zero and the
one overflow, impotent, write the largest number and 0. The quotient is rounded toward zero and the remainder has the
dividend's sign (R211; the spec's own choice D23). -/
def Obligations.DivCompletes : Prop :=
  ∀ (m : MMode) (u : Bool) (d : Nat) (o : Operand2) (s : State),
    GprReady s m.width (d :: o.registers) → s.hasMode m = true → s.cfg.hasDiv = true →
    let a := intValue u (s.readGpr d m.width)
    let b := intValue u (o.value s m u)
    let dz := decide (b = 0)
    let ov := !u && decide (a = -2 ^ (m.width - 1) ∧ b = -1)
    let largest : BitVec m.width :=
      if u then BitVec.allOnes m.width else BitVec.ofNat m.width (2 ^ (m.width - 1) - 1)
    let q := if dz || ov then largest else BitVec.ofInt m.width (a.tdiv b)
    let rem := if dz || ov then 0 else BitVec.ofInt m.width (a.tmod b)
    let raised : List Exc := if dz then [.divisionByZero] else if ov then [.overflow] else []
    NonePotent s raised →
    ∃ t g, exec (o.instr (.divReg m u d) (.divImm m u d)) s = .next t
      ∧ FileUpdated s.gpr g s.vw d q
      ∧ FileUpdated g t.gpr s.vw ((d + max 1 (m.width / s.vw)) % s.gpr.length) rem
      ∧ OnlyGprs s t ∧ Completed s t raised
      ∧ EstIs s.est t.est (intBits a b q.msb (decide (q = 0)) (ov && !dz) dz)

/-! ### Shift, rotate, logic and bit instructions -/

/-- SL, SR, RL and RR, register and immediate (R230, R231, R233 to R237): the count is unsigned; SL brings zeros in and,
arithmetic, raises OVERFLOW when the MSB changes; SR, arithmetic, is division by 2^n rounded down, and logic is that of
the unsigned value; the rotates move the bits round within the mode's width by the count modulo that width; the flags
compare unsigned, with the whole count. -/
def Obligations.ShiftsAndRotatesComplete : Prop :=
  ∀ (m : MMode) (u : Bool) (d : Nat) (o : Operand2) (s : State),
    GprReady s m.width (d :: o.registers) → s.hasMode m = true →
    let a := s.readGpr d m.width
    let b := o.value s m true
    let k := b.toNat % m.width
    let left := BitVec.ofNat m.width (a.toNat * 2 ^ b.toNat)
    let ov := !u && (left.msb != a.msb)
    let done := fun (i : Instr) (res : BitVec m.width) (raised : Bool) =>
      ∃ t, exec i s = .next t
        ∧ IntDone s t d res (if raised then [.overflow] else [])
            (logBits a.toNat b.toNat res.msb (decide (res = 0)) raised false)
    let rotated := fun (i : Instr) (bit : Nat → Nat) =>
      ∃ res : BitVec m.width, (∀ j, j < m.width → res.getLsbD j = a.getLsbD (bit j)) ∧ done i res false
    ((ov = true → s.potent .overflow = false) → done (o.instr (.slReg m u d) (.slImm m u d)) left ov)
      ∧ done (o.instr (.srReg m u d) (.srImm m u d)) (BitVec.ofInt m.width (intValue u a / 2 ^ b.toNat)) false
      ∧ rotated (o.instr (.rlReg m d) (.rlImm m d)) (fun j => (j + m.width - k) % m.width)
      ∧ rotated (o.instr (.rrReg m d) (.rrImm m d)) (fun j => (j + k) % m.width)

/-- AND, NAND, OR and XOR, register and immediate (R250, R251, R253 to R256): bit by bit; an immediate is extended by U
and a register form ignores U (log 30); the flags compare unsigned. -/
def Obligations.LogicCompletes : Prop :=
  ∀ (m : MMode) (u : Bool) (d : Nat) (o : Operand2) (s : State),
    GprReady s m.width (d :: o.registers) → s.hasMode m = true →
    let a := s.readGpr d m.width
    let b := o.value s m u
    let done := fun (i : Instr) (f : Bool → Bool → Bool) =>
      ∃ t, ∃ res : BitVec m.width, exec i s = .next t
        ∧ (∀ j, j < m.width → res.getLsbD j = f (a.getLsbD j) (b.getLsbD j))
        ∧ IntDone s t d res [] (logBits a.toNat b.toNat res.msb (decide (res = 0)) false false)
    done (o.instr (.andReg m u d) (.andImm m u d)) (fun x y => x && y)
      ∧ done (o.instr (.nandReg m u d) (.nandImm m u d)) (fun x y => !(x && y))
      ∧ done (o.instr (.orReg m u d) (.orImm m u d)) (fun x y => x || y)
      ∧ done (o.instr (.xorReg m u d) (.xorImm m u d)) (fun x y => x != y)

/-- SB, RB, TB and RVB (R260 to R267). At a bit number of the operand and of the ALU they set the bit, reset it, leave
it alone as the whole result, and reverse the bits from that one down; the flags compare with the bit number. Outside,
they raise INVALID OPERATION: potent, they trap; impotent, they write no destination and set EST[0] and the compare
flags, SIGN and ZERO 0 (keeping the destination, which the source lets be undefined, is R263's choice: log 24). -/
def Obligations.BitInstructionsComplete : Prop :=
  ∀ (m : MMode) (d : Nat) (o : Operand2) (s : State),
    GprReady s m.width (d :: o.registers) → s.hasMode m = true →
    let a := s.readGpr d m.width
    let b := (o.value s m true).toNat
    let sb := o.instr (.sbReg m d) (.sbImm m d)
    let rb := o.instr (.rbReg m d) (.rbImm m d)
    let tb := o.instr (.tbReg m d) (.tbImm m d)
    let rvb := o.instr (.rvbReg m d) (.rvbImm m d)
    let done := fun (i : Instr) (f : Nat → Bool) =>
      ∃ t, ∃ res : BitVec m.width, exec i s = .next t
        ∧ (∀ j, j < m.width → res.getLsbD j = f j)
        ∧ IntDone s t d res [] (logBits a.toNat b res.msb (decide (res = 0)) false false)
    (b < m.width ∧ b < s.cfg.aluMode.width →
        done sb (fun j => a.getLsbD j || decide (j = b))
          ∧ done rb (fun j => a.getLsbD j && decide (j ≠ b))
          ∧ done tb (fun j => decide (j = 0) && a.getLsbD b)
          ∧ done rvb (fun j => if j ≤ b then a.getLsbD (b - j) else a.getLsbD j))
      ∧ (m.width ≤ b ∨ s.cfg.aluMode.width ≤ b →
        ∀ i ∈ [sb, rb, tb, rvb], ∃ t, exec i s = .next t
          ∧ if s.potent .invalidOperation then Trapped s t [.invalidOperation]
            else t = { s with
                  est := t.est, ic := s.icNext, exc := t.exc, exi := s.ir, lastWord := s.ir, debugDue := t.debugDue }
              ∧ Completed s t [.invalidOperation] ∧ EstIs s.est t.est (logBits a.toNat b false false false true))

/-- A potent exception of the operation itself keeps the instruction from writing anything (R213, R290, R406):
OVERFLOW of ADD, SUB, DIV and arithmetic SL, DIVISION BY ZERO of DIV, and any potent exception of every FP
instruction: the set S that R288, R289, R294, and for FF2I R310, give it is marked as a whole. That FP INEXACT RESULT
is not marked beside a potent FP OVERFLOW or FP UNDERFLOW is R290's derivation (log 17); which file the integer of
FF2I and FI2F is in is log 18; that FRND may overflow is log 47; that FEXT raises no rounding exception is log 31;
tininess and overflow are tested after rounding from general knowledge (log 16, PRESUMED). -/
def Obligations.PotentResultExceptionsTrap : Prop :=
  ∀ (m : MMode) (u : Bool) (d r n : Nat) (o : Operand2) (s : State),
    let trap := fun (i : Instr) (raised : List Exc) => ∃ t, exec i s = .next t ∧ Trapped s t raised
    (GprReady s m.width (d :: o.registers) → s.hasMode m = true →
        let a := intValue u (s.readGpr d m.width)
        let b := intValue u (o.value s m u)
        let bad := fun x : Int => if u then x < 0 ∨ 2 ^ m.width - 1 < x
          else x < -2 ^ (m.width - 1) ∨ 2 ^ (m.width - 1) - 1 < x
        (s.potent .overflow = true → bad (a + b) → trap (o.instr (.addReg m u d) (.addImm m u d)) [.overflow])
          ∧ (s.potent .overflow = true → bad (a - b) → trap (o.instr (.subReg m u d) (.subImm m u d)) [.overflow])
          ∧ (s.cfg.hasDiv = true → s.potent .divisionByZero = true → b = 0 →
              trap (o.instr (.divReg m u d) (.divImm m u d)) [.divisionByZero])
          ∧ (s.cfg.hasDiv = true → s.potent .overflow = true → u = false → a = -2 ^ (m.width - 1) → b = -1 →
              trap (o.instr (.divReg m u d) (.divImm m u d)) [.overflow])
          ∧ (s.potent .overflow = true → u = false →
              (BitVec.ofNat m.width ((s.readGpr d m.width).toNat * 2 ^ (o.value s m true).toNat)).msb
                ≠ (s.readGpr d m.width).msb →
              trap (o.instr (.slReg m u d) (.slImm m u d)) [.overflow]))
      ∧ (FpReady s (max s.cfg.fp.width 16) [d, r, n] →
        let f := s.cfg.fp
        let x := s.fpValue d
        let y := s.fpValue r
        let z := s.fpValue n
        let two := s.fpDenormal d || s.fpDenormal r
        let three := two || s.fpDenormal n
        let whole := fpRoundInt s.roundingMode x
        let trapped := fun (i : Instr) (raised : List Exc) => (∃ e ∈ raised, s.potent e = true) → trap i raised
        (∀ q ∈ [(Instr.fadd d r, fpAdd s.roundingMode x y, two), (.fsub d r, fpAdd s.roundingMode x (fpNegate y), two),
            (.fmul d r, fpMul x y, two),
            (.fmad d r n, (fpMul x y).bind fun v => fpAdd s.roundingMode v z, three),
            (.fmsu d r n, (fpMul x y).bind fun v => fpAdd s.roundingMode v (fpNegate z), three)],
          trapped q.1 (raisedByFp s q.2.1.isNone q.2.2 false (fpRoundedResult s f q.2.1)))
          ∧ trapped (.fdiv d r) (raisedByFp s (fpDiv f x y).isNone two
              (match x, y with
                | .finite _ _ _, .zero _ => true
                | _, _ => false)
              (match fpDiv f x y with
                | none => { bits := quietNan f }
                | some q => roundTo f s.roundingMode q.value q.sticky))
          ∧ trapped (.frem d r) (raisedByFp s (fpRem x y).isNone two false { bits := 0 })
          ∧ trapped (.fcmp d r) (raisedByFp s (x.isSignaling || y.isSignaling) two false { bits := 0 })
          ∧ trapped (.fsqr d) (raisedByFp s (fpSqrt f x).isNone (s.fpDenormal d) false
              (match fpSqrt f x with
                | none => { bits := quietNan f }
                | some q => roundTo f s.roundingMode q.1 q.2))
          ∧ (∀ i ∈ [Instr.fabs d, .fneg d],
            trapped i (raisedByFp s x.isSignaling (s.fpDenormal d) false { bits := 0 }))
          ∧ trapped (.frnd d) (raisedByFp s x.isSignaling (s.fpDenormal d) false
            { bits := 0, overflow := (roundTo f s.roundingMode whole.1 false).overflow, inexact := whole.2 })
          ∧ ∀ q ∈ formatForms d, q.2.2 ∈ s.cfg.fpFormats → q.2.2.width ≤ f.width →
            let a := (s.readFp d q.2.2.width).toNat
            trapped q.1 (raisedByFp s (unpack (modeFormat q.2.2) a).isSignaling (isDenormal (modeFormat q.2.2) a) false
                { bits := 0 })
              ∧ trapped q.2.1 (raisedByFp s x.isSignaling (s.fpDenormal d) false
                (roundTo (modeFormat q.2.2) s.roundingMode x false)))
      ∧ (FpReady s s.cfg.fp.width [d] → s.hasMode m = true → s.bank < s.banks.length →
        partsNeeded s.intPart m.width ≤ s.intFile.length → d < s.intFile.length →
        let inRange := fun k : Int => if u then 0 ≤ k ∧ k ≤ 2 ^ m.width - 1
          else -2 ^ (m.width - 1) ≤ k ∧ k ≤ 2 ^ (m.width - 1) - 1
        let denormal : List Exc := if s.fpDenormal d then [.fpDenormalizedOperand] else []
        let trapped := fun (i : Instr) (raised : List Exc) => (∃ e ∈ raised, s.potent e = true) → trap i raised
        (∀ k inexact, fpToInt s.roundingMode (s.fpValue d) = some (k, inexact) → inRange k →
            trapped (.ff2i m u d) (denormal ++ if inexact then [Exc.fpInexactResult] else []))
          ∧ ((∀ k inexact, fpToInt s.roundingMode (s.fpValue d) = some (k, inexact) → ¬inRange k) →
            trapped (.ff2i m u d) (.fpInvalidOperation :: denormal))
          ∧ let k := intValue u (s.readInt d m.width)
            let v : FpVal := if k = 0 then .zero false else .finite (decide (k < 0)) k.natAbs 0
            trapped (.fi2f m u d) (raisedByFp s false false false (roundTo s.cfg.fp s.roundingMode v false)))

/-! ### Floating point -/

/-- FADD, FSUB, FMUL, FMAD and FMSU where nothing they raise is potent (R283, R287 to R294, R300 to R302, R337, R338):
the exact value rounded once, QNAN where it is invalid (R292, the spec's own choice D27), the flags of FpEST, which
compare the first two operands. When FP INEXACT RESULT is raised beside an overflow or an underflow is log 17; that
FMAD and FMSU do not round the product, and IEEE details, are from general knowledge (log 16, PRESUMED). -/
def Obligations.FpSumsAndProductsComplete : Prop :=
  ∀ (d r n : Nat) (s : State),
    let x := s.fpValue d
    let y := s.fpValue r
    let z := s.fpValue n
    let done := fun (i : Instr) (v : Option FpVal) (denormal : Bool) =>
      let res := fpRoundedResult s s.cfg.fp v
      let raised := raisedByFp s v.isNone denormal false res
      NonePotent s raised →
      ∃ t, exec i s = .next t ∧ FpDone s t d s.cfg.fp res raised false (fpCompare x y)
    (FpReady s s.cfg.fp.width [d, r] →
        done (.fadd d r) (fpAdd s.roundingMode x y) (s.fpDenormal d || s.fpDenormal r)
          ∧ done (.fsub d r) (fpAdd s.roundingMode x (fpNegate y)) (s.fpDenormal d || s.fpDenormal r)
          ∧ done (.fmul d r) (fpMul x y) (s.fpDenormal d || s.fpDenormal r))
      ∧ (FpReady s s.cfg.fp.width [d, r, n] →
        done (.fmad d r n) ((fpMul x y).bind fun v => fpAdd s.roundingMode v z)
            (s.fpDenormal d || s.fpDenormal r || s.fpDenormal n)
          ∧ done (.fmsu d r n) ((fpMul x y).bind fun v => fpAdd s.roundingMode v (fpNegate z))
            (s.fpDenormal d || s.fpDenormal r || s.fpDenormal n))

/-- FDIV and FREM where nothing they raise is potent (R288, R291, R303, R304): FDIV sets EST[2] for a zero divisor and
raises FP DIVISION BY ZERO where the dividend is finite and not zero; FREM is exact and raises no rounding exception
(the spec's own choice D31). IEEE details are from general knowledge (log 16, PRESUMED); log 17 as for FADD. -/
def Obligations.FpDivRemComplete : Prop :=
  ∀ (d r : Nat) (s : State), FpReady s s.cfg.fp.width [d, r] →
    let x := s.fpValue d
    let y := s.fpValue r
    let denormal := s.fpDenormal d || s.fpDenormal r
    (let res : Rounded := match fpDiv s.cfg.fp x y with
        | none => { bits := quietNan s.cfg.fp }
        | some q => roundTo s.cfg.fp s.roundingMode q.value q.sticky
      let byZero := match x, y with
        | .finite _ _ _, .zero _ => true
        | _, _ => false
      let raised := raisedByFp s (fpDiv s.cfg.fp x y).isNone denormal byZero res
      NonePotent s raised →
      ∃ t, exec (.fdiv d r) s = .next t ∧ FpDone s t d s.cfg.fp res raised y.isZero (fpCompare x y))
      ∧ (let res : Rounded := { bits := (fpRoundedResult s s.cfg.fp (fpRem x y)).bits }
        let raised := raisedByFp s (fpRem x y).isNone denormal false res
        NonePotent s raised →
        ∃ t, exec (.frem d r) s = .next t ∧ FpDone s t d s.cfg.fp res raised false (fpCompare x y))

/-- FCMP where nothing it raises is potent (R291, R305): the destination's low 16 bits take the new EST[15:0]; a
signaling NaN raises FP INVALID OPERATION; a NaN of either kind is UNORDERED. SIGN and ZERO are 0 (the spec's own
choice D28); the comparison by value is from general knowledge (log 16, PRESUMED). -/
def Obligations.FpCompareCompletes : Prop :=
  ∀ (d r : Nat) (s : State), FpReady s (max s.cfg.fp.width 16) [d, r] →
    let x := s.fpValue d
    let y := s.fpValue r
    let signaling := x.isSignaling || y.isSignaling
    let denormal := s.fpDenormal d || s.fpDenormal r
    let raised : List Exc :=
      (if signaling then [.fpInvalidOperation] else []) ++ (if denormal then [.fpDenormalizedOperand] else [])
    NonePotent s raised →
    ∃ t, exec (.fcmp d r) s = .next t
      ∧ OnlyFp s t ∧ Completed s t raised
      ∧ EstIs s.est t.est (fun n => match n with
          | 0 => signaling
          | 5 => fpCompare x y == some .eq
          | 6 => fpCompare x y == some .gt
          | 7 => fpCompare x y == some .lt
          | 9 => x.isNan || y.isNan
          | 12 => denormal
          | 14 => signaling
          | 15 => x.isNan || y.isNan
          | _ => false)
      ∧ FileUpdated s.fpFile t.fpFile s.fpPart d (t.est.setWidth 16)

/-- FSQR, FABS, FNEG and FRND where nothing they raise is potent (R306 to R309): a signaling NaN, and for FSQR a
number below zero, is invalid; FABS and FNEG change the sign bit alone and do not round; FRND takes the integer the
rounding mode names, and where the format cannot hold that integer it overflows (log 47). The sign of a zero that FRND
gives, the roots of zero and infinity, and that -0 is not below zero are from general knowledge (log 16, PRESUMED). -/
def Obligations.FpOneOperandComplete : Prop :=
  ∀ (d : Nat) (s : State), FpReady s s.cfg.fp.width [d] →
    let f := s.cfg.fp
    let x := s.fpValue d
    let low := s.fpOperand d % 2 ^ (f.width - 1)
    let quiet := fun r : Rounded => if x.isSignaling then { bits := quietNan f } else r
    let root : Rounded := match fpSqrt f x with
      | none => { bits := quietNan f }
      | some q => roundTo f s.roundingMode q.1 q.2
    let whole := fpRoundInt s.roundingMode x
    let fit := roundTo f s.roundingMode whole.1 false
    ∀ q ∈ [(Instr.fsqr d, (fpSqrt f x).isNone, root),
        (.fabs d, x.isSignaling, quiet { bits := low }),
        (.fneg d, x.isSignaling, quiet { bits := low + (if fpSign f (s.fpOperand d) then 0 else 2 ^ (f.width - 1)) }),
        (.frnd d, x.isSignaling,
          { bits := fit.bits, overflow := fit.overflow, inexact := whole.2 })],
      let raised := raisedByFp s q.2.1 (s.fpDenormal d) false q.2.2
      NonePotent s raised →
      ∃ t, exec q.1 s = .next t ∧ FpDone s t d f q.2.2 raised false none

/-- FF2I (R310): the operand rounded to an integer in the rounding mode, at the integer's width in the file that holds
the integer (log 18), EST[12] telling a denormalized operand (log 14); a NaN, an infinity and an integer out of the
mode's range are invalid and, impotent, keep the destination and leave EST[15:0] = 1. The classes of the operand are
from general knowledge (log 16, PRESUMED). -/
def Obligations.FpToIntegerCompletes : Prop :=
  ∀ (m : MMode) (u : Bool) (d : Nat) (s : State),
    FpReady s s.cfg.fp.width [d] → s.hasMode m = true → s.bank < s.banks.length →
    partsNeeded s.intPart m.width ≤ s.intFile.length → d < s.intFile.length →
    let inRange := fun n : Int => if u then 0 ≤ n ∧ n ≤ 2 ^ m.width - 1
      else -2 ^ (m.width - 1) ≤ n ∧ n ≤ 2 ^ (m.width - 1) - 1
    let frame := fun t : State => { s with
      banks := if s.intInFpr then s.banks else s.banks.set s.bank t.gpr,
      fpr := if s.intInFpr then t.fpr else s.fpr,
      est := t.est, ic := s.icNext, exc := t.exc, exi := t.exi, lastWord := t.lastWord, debugDue := t.debugDue }
    let denormal : List Exc := if s.fpDenormal d then [.fpDenormalizedOperand] else []
    (∀ n inexact, fpToInt s.roundingMode (s.fpValue d) = some (n, inexact) → inRange n →
        let raised := denormal ++ if inexact then [Exc.fpInexactResult] else []
        let res := BitVec.ofInt m.width n
        NonePotent s raised →
        ∃ t, exec (.ff2i m u d) s = .next t ∧ t = frame t ∧ Completed s t raised
          ∧ FileUpdated s.intFile t.intFile s.intPart d res
          ∧ EstIs s.est t.est (fun k => match k with
              | 8 => inexact
              | 10 => res.msb
              | 11 => decide (res = 0)
              | 12 => s.fpDenormal d
              | _ => false))
      ∧ ((∀ n inexact, fpToInt s.roundingMode (s.fpValue d) = some (n, inexact) → ¬inRange n) →
        NonePotent s (.fpInvalidOperation :: denormal) →
        ∃ t, exec (.ff2i m u d) s = .next t
          ∧ t = { s with
              est := t.est, ic := s.icNext, exc := t.exc, exi := s.ir, lastWord := s.ir, debugDue := t.debugDue }
          ∧ Completed s t (.fpInvalidOperation :: denormal) ∧ EstIs s.est t.est (fun k => decide (k = 0)))

/-- FI2F where nothing it raises is potent (R311): the integer rounded to the FP format; zero is +0; no invalid
operation and no denormalized operand. With an FPR file, in which file the integer is read, and that DESTINATION must
exist in that file too, is the model's choice (log 18); the overflowed result by mode is from general knowledge
(log 16, PRESUMED), and log 17 as for FADD. -/
def Obligations.IntegerToFpCompletes : Prop :=
  ∀ (m : MMode) (u : Bool) (d : Nat) (s : State),
    FpReady s s.cfg.fp.width [d] → s.hasMode m = true →
    partsNeeded s.intPart m.width ≤ s.intFile.length → d < s.intFile.length →
    let n := intValue u (s.readInt d m.width)
    let res := roundTo s.cfg.fp s.roundingMode
      (if n = 0 then .zero false else .finite (decide (n < 0)) n.natAbs 0) false
    let raised := raisedByFp s false false false res
    NonePotent s raised →
    ∃ t, exec (.fi2f m u d) s = .next t ∧ FpDone s t d s.cfg.fp res raised false none

/-- FEXT and FSQZ for each of the five formats, where the FPU converts the format and nothing they raise is potent
(R315, R316, R319): FEXT reads the narrower format and writes the FP format; FSQZ rounds to the narrower format,
writes only its bits and classes the result in it; a signaling NaN is invalid. That FEXT raises no rounding exception,
and what it writes where the FP format cannot hold the narrower value, is the model's choice (log 31); where it can,
the value is kept (RepresentableNumbersRoundToThemselves). The five formats and the overflowed result by mode are from
general knowledge (log 16, PRESUMED); log 17 as for FADD. -/
def Obligations.FpFormatConversionsComplete : Prop :=
  ∀ (d : Nat) (s : State), FpReady s s.cfg.fp.width [d] →
    ∀ q ∈ formatForms d,
      q.2.2 ∈ s.cfg.fpFormats → q.2.2.width ≤ s.cfg.fp.width →
      let narrow := modeFormat q.2.2
      (let a := (s.readFp d q.2.2.width).toNat
        let x := unpack narrow a
        let res : Rounded := { bits := (roundTo s.cfg.fp s.roundingMode x false).bits }
        let raised := raisedByFp s x.isSignaling (isDenormal narrow a) false res
        NonePotent s raised → ∃ t, exec q.1 s = .next t ∧ FpDone s t d s.cfg.fp res raised false none)
        ∧ (let x := s.fpValue d
          let res := roundTo narrow s.roundingMode x false
          let raised := raisedByFp s x.isSignaling (s.fpDenormal d) false res
          NonePotent s raised → ∃ t, exec q.2.1 s = .next t ∧ FpDone s t d narrow res raised false none)

/-- The operations of the FP instructions before rounding (R289, R291, R300 to R304, R306). On two numbers the sum,
product, negation and order are those of the rational numbers, and the remainder is the exact difference to the
nearest multiple of the divisor, the even one on a tie; the sign of a product is the XOR, an exact zero sum is +0 but
in mode Negative infinity unless both zeros have one sign, a zero remainder has the dividend's sign. A NaN operand is
invalid and unordered, infinities of opposite signs in a sum, zero times infinity, zero by zero and infinity by
infinity, the remainder of an infinity or by zero, and the root of a number below zero are invalid; every other
operation on an infinity or a division by zero gives the infinity, the zero or the operand the rules name, exact. The
source states the invalid cases; the signs of zero sums, products and remainders, the order of the two zeros, the
results on infinities and the roots of zero and infinity are what the spec takes from general knowledge (log 16,
PRESUMED), and FREM as the IEEE remainder is the spec's own choice D31. -/
def Obligations.FpOperationsAreExact : Prop :=
  ∀ (f : FpFormat) (mode : RoundingMode) (a b : FpVal) (x y : Bool),
    (a.isNumber = true → b.isNumber = true →
        (∃ v, fpAdd mode a b = some v ∧ v.isNumber = true ∧ v.toRat = a.toRat + b.toRat
            ∧ (a.toRat + b.toRat = 0 → v.negative =
                if a.isZero && b.isZero && a.negative == b.negative then a.negative else mode == .negative))
          ∧ (∃ v, fpMul a b = some v ∧ v.isNumber = true ∧ v.toRat = a.toRat * b.toRat
            ∧ v.negative = (a.negative != b.negative))
          ∧ (fpNegate a).toRat = -a.toRat ∧ (fpNegate a).negative = !a.negative
          ∧ fpCompare a b = some (compare a.toRat b.toRat)
          ∧ (b.toRat ≠ 0 → ∃ v, ∃ n : Int, fpRem a b = some v ∧ v.isNumber = true ∧ v.toRat = a.toRat - b.toRat * n
              ∧ |v.toRat| * 2 ≤ |b.toRat| ∧ (|v.toRat| * 2 = |b.toRat| → n % 2 = 0)
              ∧ (v.toRat = 0 → v.negative = a.negative)))
      ∧ (a.isNan = true ∨ b.isNan = true →
        fpAdd mode a b = none ∧ fpMul a b = none ∧ fpDiv f a b = none ∧ fpRem a b = none ∧ fpCompare a b = none)
      ∧ (fpAdd mode (.infinite x) (.infinite y) = (if x = y then some (.infinite x) else none)
          ∧ fpMul (.infinite x) (.infinite y) = some (.infinite (x != y))
          ∧ fpDiv f (.infinite x) (.infinite y) = none ∧ fpRem (.infinite x) (.infinite y) = none
          ∧ fpCompare (.infinite x) (.infinite y) = some (if x = y then .eq else if x then .lt else .gt)
          ∧ fpNegate (.infinite x) = .infinite (!x))
      ∧ (a.isNumber = true →
        fpAdd mode a (.infinite x) = some (.infinite x) ∧ fpAdd mode (.infinite x) a = some (.infinite x)
          ∧ fpMul a (.infinite x) = (if a.toRat = 0 then none else some (.infinite (a.negative != x)))
          ∧ fpMul (.infinite x) a = (if a.toRat = 0 then none else some (.infinite (x != a.negative)))
          ∧ fpDiv f (.infinite x) a = some { value := .infinite (x != a.negative) }
          ∧ fpDiv f a (.infinite x) = some { value := .zero (a.negative != x) }
          ∧ fpRem (.infinite x) a = none ∧ fpRem a (.infinite x) = some a ∧ fpRem a (.zero x) = none
          ∧ fpCompare (.infinite x) a = some (if x then .lt else .gt)
          ∧ fpCompare a (.infinite x) = some (if x then .gt else .lt)
          ∧ (a.toRat = 0 → fpDiv f a (.zero x) = none)
          ∧ (a.toRat ≠ 0 → fpDiv f a (.zero x) = some { value := .infinite (a.negative != x), byZero := true }
            ∧ fpDiv f (.zero x) a = some { value := .zero (x != a.negative) })
          ∧ (a.toRat < 0 → fpSqrt f a = none))
      ∧ fpSqrt f (.zero x) = some (.zero x, false) ∧ fpSqrt f (.infinite true) = none
      ∧ fpSqrt f (.infinite false) = some (.infinite false, false)
      ∧ fpSqrt f (.nan x) = if x then none else some (.nan false, false)

/-- UCR[11:8] selects the rounding mode (R59). Rounding to a multiple of 2^e, of a number that may have more bits
below the ones kept (sticky), takes the neighbour the mode names (R284; the reading of the ten names is the spec's own
choice D25). Rounding to a format: the number is rounded to the format's precision with unbounded exponent; it
overflows when that exceeds the largest finite number, is tiny when that is below the smallest normal one (R288, the
spec's own choice D30); on overflow the result is the infinity or the largest finite number, as the mode says (R293),
else the neighbour at the format's own last place, which for tiny numbers is that of the denormalized ones. Which
rounding mode overflows to which of the two results is R293's assignment from general knowledge, and so are the formats'
patterns and the test of overflow and tininess after rounding with unbounded exponent (log 16, PRESUMED). -/
def Obligations.RoundingTakesTheNamedNeighbour : Prop :=
  (∀ (s : State), ∀ q ∈ [(0#4, RoundingMode.nearestEven), (1#4, .nearestOdd), (2#4, .nearestAway),
      (3#4, .nearestPositive), (4#4, .nearestNegative), (5#4, .nearestZero), (10#4, .zeroAway), (11#4, .positive),
      (12#4, .negative), (13#4, .toZero)], s.ucr.extractLsb' 8 4 = q.1 → s.roundingMode = q.2)
    ∧ (∀ (mode : RoundingMode) (neg : Bool) (sig : Nat) (exp e : Int) (sticky : Bool) (x : ℚ),
      StandsFor sig exp sticky x → (sticky = true → exp < e) →
      let r := roundAt mode neg sig exp sticky e
      RoundsTo mode neg x r.1 ((2 : ℚ) ^ e) r.2)
    ∧ ∀ (f : FpFormat) (mode : RoundingMode) (neg : Bool) (sig : Nat) (exp : Int) (sticky : Bool) (x : ℚ),
      2 ≤ f.expBits → 1 ≤ f.manBits → 0 < sig → StandsFor sig exp sticky x →
      (sticky = true → 2 ^ (f.manBits + 2) ≤ sig) →
      let r := roundTo f mode (.finite neg sig exp) sticky
      let v := unpack f r.bits
      ∃ (e : Int) (n : Nat) (inexact : Bool),
        (2 : ℚ) ^ f.manBits * (2 : ℚ) ^ e ≤ x ∧ x < (2 : ℚ) ^ (f.manBits + 1) * (2 : ℚ) ^ e
          ∧ RoundsTo mode neg x n ((2 : ℚ) ^ e) inexact
          ∧ r.bits < 2 ^ f.width ∧ v.negative = neg
          ∧ (r.overflow = true ↔ (2 : ℚ) ^ (fpBias f + 1) ≤ n * (2 : ℚ) ^ e)
          ∧ (r.overflow = true → r.inexact = true ∧ r.tiny = false
            ∧ (overflowsToInfinity mode neg = true → v = .infinite neg)
            ∧ (overflowsToInfinity mode neg = false →
              |v.toRat| = ((2 : ℚ) ^ (f.manBits + 1) - 1) * (2 : ℚ) ^ (fpBias f - f.manBits)))
          ∧ (r.overflow = false →
            (r.tiny = true ↔ n * (2 : ℚ) ^ e < (2 : ℚ) ^ (1 - fpBias f))
              ∧ v.isNumber = true
              ∧ ∃ k : Nat, |v.toRat| = k * (2 : ℚ) ^ (max e (fpMinExp f))
                ∧ RoundsTo mode neg x k ((2 : ℚ) ^ (max e (fpMinExp f))) r.inexact)

/-- A number the format holds is returned unchanged by every rounding mode, with no overflow and not inexact (R284,
R286); a number of a format with no more exponent and no more mantissa bits keeps its sign and value in a wider one
(R316); a zero and an infinity keep their sign, and a NaN becomes the quiet NaN: sign 0, the top mantissa bit alone
set (R286, the spec's own choice D27), with nothing raised. The bit patterns of the classes are from general knowledge
(log 16, PRESUMED). -/
def Obligations.RepresentableNumbersRoundToThemselves : Prop :=
  ∀ (f g : FpFormat) (mode : RoundingMode) (v : Nat) (neg sticky : Bool), 2 ≤ f.expBits → 1 ≤ f.manBits →
    2 ≤ g.expBits → 1 ≤ g.manBits → g.expBits ≤ f.expBits → g.manBits ≤ f.manBits →
    (v < 2 ^ g.width → (unpack g v).isNumber = true →
        let r := roundTo f mode (unpack g v) false
        (unpack f r.bits).toRat = (unpack g v).toRat ∧ (unpack f r.bits).negative = fpSign g v ∧ r.bits < 2 ^ f.width
          ∧ r.overflow = false ∧ r.inexact = false ∧ (g = f → r.bits = v))
      ∧ (let r := roundTo f mode (.zero neg) sticky
        unpack f r.bits = .zero neg ∧ r = { bits := r.bits } ∧ r.bits < 2 ^ f.width)
      ∧ (let r := roundTo f mode (.infinite neg) sticky
        unpack f r.bits = .infinite neg ∧ r = { bits := r.bits } ∧ r.bits < 2 ^ f.width)
      ∧ roundTo f mode (.nan neg) sticky = { bits := (2 ^ f.expBits - 1) * 2 ^ f.manBits + 2 ^ (f.manBits - 1) }
      ∧ unpack f ((2 ^ f.expBits - 1) * 2 ^ f.manBits + 2 ^ (f.manBits - 1)) = .nan false

/-- The quotient and the square root that FDIV and FSQR round are the exact ones cut off below at least two bits under
the format's precision, with the cut told by the sticky bit (R303, R306). -/
def Obligations.QuotientAndRootAreCutExactly : Prop :=
  ∀ (f : FpFormat) (x y : Bool) (sx sy : Nat) (ex ey : Int), 0 < sx → 0 < sy →
    (∃ q sticky, fpDiv f (.finite x sx ex) (.finite y sy ey)
          = some ⟨.finite (x != y) q (ex - ey - (f.manBits + 4 + Nat.log2 sy : Nat)), sticky, false⟩
        ∧ 2 ^ (f.manBits + 2) ≤ q
        ∧ q * sy ≤ sx * 2 ^ (f.manBits + 4 + Nat.log2 sy) ∧ sx * 2 ^ (f.manBits + 4 + Nat.log2 sy) < (q + 1) * sy
        ∧ (sticky = false ↔ q * sy = sx * 2 ^ (f.manBits + 4 + Nat.log2 sy)))
      ∧ ∃ r e sticky, fpSqrt f (.finite false sx ex) = some (.finite false r e, sticky)
        ∧ 2 ^ (f.manBits + 2) ≤ r
        ∧ ((r : ℚ) * (2 : ℚ) ^ e) ^ 2 ≤ (sx : ℚ) * (2 : ℚ) ^ ex
        ∧ (sx : ℚ) * (2 : ℚ) ^ ex < (((r : ℚ) + 1) * (2 : ℚ) ^ e) ^ 2
        ∧ (sticky = false ↔ ((r : ℚ) * (2 : ℚ) ^ e) ^ 2 = (sx : ℚ) * (2 : ℚ) ^ ex)

/-! ### Control -/

/-- JMP, by register and by offset (R351 to R353, R360): relative to its own number or absolute, modulo 2^IC_WIDTH; with
P = 1 CRP takes IC + 1; nothing else changes but what completing writes. -/
def Obligations.JumpCompletes : Prop :=
  ∀ (a p : Bool) (tgt : Target 20) (s : State), s.cfg.icWidth ≤ 64 → s.lacks = false →
    (∀ l ∈ tgt.registers, l < s.gpr.length) →
    ∃ t, exec (jumpForm a p tgt) s = .next t
      ∧ OnlyTransfer s t ∧ (t.ic.toNat : Int) = tgt.destination a s ∧ t.crp = (if p then s.icNext else s.crp)
      ∧ Completed s t []

/-- The twelve branches, by register and by offset (R351 to R354, R356, R361 to R372): the condition on the argument at
the mode's width decides between the transfer and IC + 1; CRP is written only when the branch is taken and P = 1. -/
def Obligations.BranchesComplete : Prop :=
  ∀ (c : Branch) (m : MMode) (a p : Bool) (g : Nat) (tgt : Target 14) (s : State), s.cfg.icWidth ≤ 64 →
    GprReady s m.width (g :: tgt.registers) → s.hasMode m = true →
    let taken := c.holds (s.readGpr g m.width)
    ∃ t, exec (c.instr m a p g tgt) s = .next t
      ∧ OnlyTransfer s t
      ∧ (taken = true → (t.ic.toNat : Int) = tgt.destination a s)
      ∧ (taken = false → t.ic = s.icNext)
      ∧ t.crp = (if taken && p then s.icNext else s.crp)
      ∧ Completed s t []
end

