-- ==== Sys2Proof/Laws/State.lean ====
section
/-! SUPPORT. The fields of a state after each named update: one lemma per field per update. -/
namespace Sys2Proof.Machine

/-! ### withGpr: another GPR file in the bank in use -/

@[simp] theorem State.withGpr_cfg (s : State) (f : List RegBits) : (s.withGpr f).cfg = s.cfg := rfl
@[simp] theorem State.withGpr_banks (s : State) (f : List RegBits) : (s.withGpr f).banks = s.banks.set s.bank f := rfl
@[simp] theorem State.withGpr_dsp (s : State) (f : List RegBits) : (s.withGpr f).dsp = s.dsp := rfl
@[simp] theorem State.withGpr_fpr (s : State) (f : List RegBits) : (s.withGpr f).fpr = s.fpr := rfl
@[simp] theorem State.withGpr_ic (s : State) (f : List RegBits) : (s.withGpr f).ic = s.ic := rfl
@[simp] theorem State.withGpr_est (s : State) (f : List RegBits) : (s.withGpr f).est = s.est := rfl
@[simp] theorem State.withGpr_exi (s : State) (f : List RegBits) : (s.withGpr f).exi = s.exi := rfl
@[simp] theorem State.withGpr_exc (s : State) (f : List RegBits) : (s.withGpr f).exc = s.exc := rfl
@[simp] theorem State.withGpr_exm (s : State) (f : List RegBits) : (s.withGpr f).exm = s.exm := rfl
@[simp] theorem State.withGpr_etb (s : State) (f : List RegBits) : (s.withGpr f).etb = s.etb := rfl
@[simp] theorem State.withGpr_itb (s : State) (f : List RegBits) : (s.withGpr f).itb = s.itb := rfl
@[simp] theorem State.withGpr_cid (s : State) (f : List RegBits) : (s.withGpr f).cid = s.cid := rfl
@[simp] theorem State.withGpr_pid (s : State) (f : List RegBits) : (s.withGpr f).pid = s.pid := rfl
@[simp] theorem State.withGpr_scr (s : State) (f : List RegBits) : (s.withGpr f).scr = s.scr := rfl
@[simp] theorem State.withGpr_nrp (s : State) (f : List RegBits) : (s.withGpr f).nrp = s.nrp := rfl
@[simp] theorem State.withGpr_erp (s : State) (f : List RegBits) : (s.withGpr f).erp = s.erp := rfl
@[simp] theorem State.withGpr_ucr (s : State) (f : List RegBits) : (s.withGpr f).ucr = s.ucr := rfl
@[simp] theorem State.withGpr_crp (s : State) (f : List RegBits) : (s.withGpr f).crp = s.crp := rfl
@[simp] theorem State.withGpr_irp (s : State) (f : List RegBits) : (s.withGpr f).irp = s.irp := rfl
@[simp] theorem State.withGpr_dcr (s : State) (f : List RegBits) : (s.withGpr f).dcr = s.dcr := rfl
@[simp] theorem State.withGpr_spcExtra (s : State) (f : List RegBits) : (s.withGpr f).spcExtra = s.spcExtra := rfl
@[simp] theorem State.withGpr_mem (s : State) (f : List RegBits) : (s.withGpr f).mem = s.mem := rfl
@[simp] theorem State.withGpr_reservation (s : State) (f : List RegBits) : (s.withGpr f).reservation = s.reservation := rfl
@[simp] theorem State.withGpr_irqPending (s : State) (f : List RegBits) : (s.withGpr f).irqPending = s.irqPending := rfl
@[simp] theorem State.withGpr_nmiPending (s : State) (f : List RegBits) : (s.withGpr f).nmiPending = s.nmiPending := rfl
@[simp] theorem State.withGpr_waitTimer (s : State) (f : List RegBits) : (s.withGpr f).waitTimer = s.waitTimer := rfl
@[simp] theorem State.withGpr_waiting (s : State) (f : List RegBits) : (s.withGpr f).waiting = s.waiting := rfl
@[simp] theorem State.withGpr_savedN (s : State) (f : List RegBits) : (s.withGpr f).savedN = s.savedN := rfl
@[simp] theorem State.withGpr_savedE (s : State) (f : List RegBits) : (s.withGpr f).savedE = s.savedE := rfl
@[simp] theorem State.withGpr_savedI (s : State) (f : List RegBits) : (s.withGpr f).savedI = s.savedI := rfl
@[simp] theorem State.withGpr_lastWord (s : State) (f : List RegBits) : (s.withGpr f).lastWord = s.lastWord := rfl
@[simp] theorem State.withGpr_errorState (s : State) (f : List RegBits) : (s.withGpr f).errorState = s.errorState := rfl
@[simp] theorem State.withGpr_errorLine (s : State) (f : List RegBits) : (s.withGpr f).errorLine = s.errorLine := rfl
@[simp] theorem State.withGpr_ir (s : State) (f : List RegBits) : (s.withGpr f).ir = s.ir := rfl
@[simp] theorem State.withGpr_debugDue (s : State) (f : List RegBits) : (s.withGpr f).debugDue = s.debugDue := rfl
@[simp] theorem State.withGpr_refused (s : State) (f : List RegBits) : (s.withGpr f).refused = s.refused := rfl
@[simp] theorem State.withGpr_inputs (s : State) (f : List RegBits) : (s.withGpr f).inputs = s.inputs := rfl
@[simp] theorem State.withGpr_resets (s : State) (f : List RegBits) : (s.withGpr f).resets = s.resets := rfl

/-! ### writeGpr: a GPR write -/

@[simp] theorem State.writeGpr_cfg (s : State) (n : Nat) {w : Nat} (v : BitVec w) : (s.writeGpr n v).cfg = s.cfg := rfl
@[simp] theorem State.writeGpr_banks (s : State) (n : Nat) {w : Nat} (v : BitVec w) : (s.writeGpr n v).banks = s.banks.set s.bank (writeFile s.gpr s.vw n v) := rfl
@[simp] theorem State.writeGpr_dsp (s : State) (n : Nat) {w : Nat} (v : BitVec w) : (s.writeGpr n v).dsp = s.dsp := rfl
@[simp] theorem State.writeGpr_fpr (s : State) (n : Nat) {w : Nat} (v : BitVec w) : (s.writeGpr n v).fpr = s.fpr := rfl
@[simp] theorem State.writeGpr_ic (s : State) (n : Nat) {w : Nat} (v : BitVec w) : (s.writeGpr n v).ic = s.ic := rfl
@[simp] theorem State.writeGpr_est (s : State) (n : Nat) {w : Nat} (v : BitVec w) : (s.writeGpr n v).est = s.est := rfl
@[simp] theorem State.writeGpr_exi (s : State) (n : Nat) {w : Nat} (v : BitVec w) : (s.writeGpr n v).exi = s.exi := rfl
@[simp] theorem State.writeGpr_exc (s : State) (n : Nat) {w : Nat} (v : BitVec w) : (s.writeGpr n v).exc = s.exc := rfl
@[simp] theorem State.writeGpr_exm (s : State) (n : Nat) {w : Nat} (v : BitVec w) : (s.writeGpr n v).exm = s.exm := rfl
@[simp] theorem State.writeGpr_etb (s : State) (n : Nat) {w : Nat} (v : BitVec w) : (s.writeGpr n v).etb = s.etb := rfl
@[simp] theorem State.writeGpr_itb (s : State) (n : Nat) {w : Nat} (v : BitVec w) : (s.writeGpr n v).itb = s.itb := rfl
@[simp] theorem State.writeGpr_cid (s : State) (n : Nat) {w : Nat} (v : BitVec w) : (s.writeGpr n v).cid = s.cid := rfl
@[simp] theorem State.writeGpr_pid (s : State) (n : Nat) {w : Nat} (v : BitVec w) : (s.writeGpr n v).pid = s.pid := rfl
@[simp] theorem State.writeGpr_scr (s : State) (n : Nat) {w : Nat} (v : BitVec w) : (s.writeGpr n v).scr = s.scr := rfl
@[simp] theorem State.writeGpr_nrp (s : State) (n : Nat) {w : Nat} (v : BitVec w) : (s.writeGpr n v).nrp = s.nrp := rfl
@[simp] theorem State.writeGpr_erp (s : State) (n : Nat) {w : Nat} (v : BitVec w) : (s.writeGpr n v).erp = s.erp := rfl
@[simp] theorem State.writeGpr_ucr (s : State) (n : Nat) {w : Nat} (v : BitVec w) : (s.writeGpr n v).ucr = s.ucr := rfl
@[simp] theorem State.writeGpr_crp (s : State) (n : Nat) {w : Nat} (v : BitVec w) : (s.writeGpr n v).crp = s.crp := rfl
@[simp] theorem State.writeGpr_irp (s : State) (n : Nat) {w : Nat} (v : BitVec w) : (s.writeGpr n v).irp = s.irp := rfl
@[simp] theorem State.writeGpr_dcr (s : State) (n : Nat) {w : Nat} (v : BitVec w) : (s.writeGpr n v).dcr = s.dcr := rfl
@[simp] theorem State.writeGpr_spcExtra (s : State) (n : Nat) {w : Nat} (v : BitVec w) : (s.writeGpr n v).spcExtra = s.spcExtra := rfl
@[simp] theorem State.writeGpr_mem (s : State) (n : Nat) {w : Nat} (v : BitVec w) : (s.writeGpr n v).mem = s.mem := rfl
@[simp] theorem State.writeGpr_reservation (s : State) (n : Nat) {w : Nat} (v : BitVec w) : (s.writeGpr n v).reservation = s.reservation := rfl
@[simp] theorem State.writeGpr_irqPending (s : State) (n : Nat) {w : Nat} (v : BitVec w) : (s.writeGpr n v).irqPending = s.irqPending := rfl
@[simp] theorem State.writeGpr_nmiPending (s : State) (n : Nat) {w : Nat} (v : BitVec w) : (s.writeGpr n v).nmiPending = s.nmiPending := rfl
@[simp] theorem State.writeGpr_waitTimer (s : State) (n : Nat) {w : Nat} (v : BitVec w) : (s.writeGpr n v).waitTimer = s.waitTimer := rfl
@[simp] theorem State.writeGpr_waiting (s : State) (n : Nat) {w : Nat} (v : BitVec w) : (s.writeGpr n v).waiting = s.waiting := rfl
@[simp] theorem State.writeGpr_savedN (s : State) (n : Nat) {w : Nat} (v : BitVec w) : (s.writeGpr n v).savedN = s.savedN := rfl
@[simp] theorem State.writeGpr_savedE (s : State) (n : Nat) {w : Nat} (v : BitVec w) : (s.writeGpr n v).savedE = s.savedE := rfl
@[simp] theorem State.writeGpr_savedI (s : State) (n : Nat) {w : Nat} (v : BitVec w) : (s.writeGpr n v).savedI = s.savedI := rfl
@[simp] theorem State.writeGpr_lastWord (s : State) (n : Nat) {w : Nat} (v : BitVec w) : (s.writeGpr n v).lastWord = s.lastWord := rfl
@[simp] theorem State.writeGpr_errorState (s : State) (n : Nat) {w : Nat} (v : BitVec w) : (s.writeGpr n v).errorState = s.errorState := rfl
@[simp] theorem State.writeGpr_errorLine (s : State) (n : Nat) {w : Nat} (v : BitVec w) : (s.writeGpr n v).errorLine = s.errorLine := rfl
@[simp] theorem State.writeGpr_ir (s : State) (n : Nat) {w : Nat} (v : BitVec w) : (s.writeGpr n v).ir = s.ir := rfl
@[simp] theorem State.writeGpr_debugDue (s : State) (n : Nat) {w : Nat} (v : BitVec w) : (s.writeGpr n v).debugDue = s.debugDue := rfl
@[simp] theorem State.writeGpr_refused (s : State) (n : Nat) {w : Nat} (v : BitVec w) : (s.writeGpr n v).refused = s.refused := rfl
@[simp] theorem State.writeGpr_inputs (s : State) (n : Nat) {w : Nat} (v : BitVec w) : (s.writeGpr n v).inputs = s.inputs := rfl
@[simp] theorem State.writeGpr_resets (s : State) (n : Nat) {w : Nat} (v : BitVec w) : (s.writeGpr n v).resets = s.resets := rfl

/-! ### writeDsp: a DSP register write -/

@[simp] theorem State.writeDsp_cfg (s : State) (n : Nat) {w : Nat} (v : BitVec w) : (s.writeDsp n v).cfg = s.cfg := rfl
@[simp] theorem State.writeDsp_banks (s : State) (n : Nat) {w : Nat} (v : BitVec w) : (s.writeDsp n v).banks = s.banks := rfl
@[simp] theorem State.writeDsp_dsp (s : State) (n : Nat) {w : Nat} (v : BitVec w) : (s.writeDsp n v).dsp = writeFile s.dsp s.dspWidth n v := rfl
@[simp] theorem State.writeDsp_fpr (s : State) (n : Nat) {w : Nat} (v : BitVec w) : (s.writeDsp n v).fpr = s.fpr := rfl
@[simp] theorem State.writeDsp_ic (s : State) (n : Nat) {w : Nat} (v : BitVec w) : (s.writeDsp n v).ic = s.ic := rfl
@[simp] theorem State.writeDsp_est (s : State) (n : Nat) {w : Nat} (v : BitVec w) : (s.writeDsp n v).est = s.est := rfl
@[simp] theorem State.writeDsp_exi (s : State) (n : Nat) {w : Nat} (v : BitVec w) : (s.writeDsp n v).exi = s.exi := rfl
@[simp] theorem State.writeDsp_exc (s : State) (n : Nat) {w : Nat} (v : BitVec w) : (s.writeDsp n v).exc = s.exc := rfl
@[simp] theorem State.writeDsp_exm (s : State) (n : Nat) {w : Nat} (v : BitVec w) : (s.writeDsp n v).exm = s.exm := rfl
@[simp] theorem State.writeDsp_etb (s : State) (n : Nat) {w : Nat} (v : BitVec w) : (s.writeDsp n v).etb = s.etb := rfl
@[simp] theorem State.writeDsp_itb (s : State) (n : Nat) {w : Nat} (v : BitVec w) : (s.writeDsp n v).itb = s.itb := rfl
@[simp] theorem State.writeDsp_cid (s : State) (n : Nat) {w : Nat} (v : BitVec w) : (s.writeDsp n v).cid = s.cid := rfl
@[simp] theorem State.writeDsp_pid (s : State) (n : Nat) {w : Nat} (v : BitVec w) : (s.writeDsp n v).pid = s.pid := rfl
@[simp] theorem State.writeDsp_scr (s : State) (n : Nat) {w : Nat} (v : BitVec w) : (s.writeDsp n v).scr = s.scr := rfl
@[simp] theorem State.writeDsp_nrp (s : State) (n : Nat) {w : Nat} (v : BitVec w) : (s.writeDsp n v).nrp = s.nrp := rfl
@[simp] theorem State.writeDsp_erp (s : State) (n : Nat) {w : Nat} (v : BitVec w) : (s.writeDsp n v).erp = s.erp := rfl
@[simp] theorem State.writeDsp_ucr (s : State) (n : Nat) {w : Nat} (v : BitVec w) : (s.writeDsp n v).ucr = s.ucr := rfl
@[simp] theorem State.writeDsp_crp (s : State) (n : Nat) {w : Nat} (v : BitVec w) : (s.writeDsp n v).crp = s.crp := rfl
@[simp] theorem State.writeDsp_irp (s : State) (n : Nat) {w : Nat} (v : BitVec w) : (s.writeDsp n v).irp = s.irp := rfl
@[simp] theorem State.writeDsp_dcr (s : State) (n : Nat) {w : Nat} (v : BitVec w) : (s.writeDsp n v).dcr = s.dcr := rfl
@[simp] theorem State.writeDsp_spcExtra (s : State) (n : Nat) {w : Nat} (v : BitVec w) : (s.writeDsp n v).spcExtra = s.spcExtra := rfl
@[simp] theorem State.writeDsp_mem (s : State) (n : Nat) {w : Nat} (v : BitVec w) : (s.writeDsp n v).mem = s.mem := rfl
@[simp] theorem State.writeDsp_reservation (s : State) (n : Nat) {w : Nat} (v : BitVec w) : (s.writeDsp n v).reservation = s.reservation := rfl
@[simp] theorem State.writeDsp_irqPending (s : State) (n : Nat) {w : Nat} (v : BitVec w) : (s.writeDsp n v).irqPending = s.irqPending := rfl
@[simp] theorem State.writeDsp_nmiPending (s : State) (n : Nat) {w : Nat} (v : BitVec w) : (s.writeDsp n v).nmiPending = s.nmiPending := rfl
@[simp] theorem State.writeDsp_waitTimer (s : State) (n : Nat) {w : Nat} (v : BitVec w) : (s.writeDsp n v).waitTimer = s.waitTimer := rfl
@[simp] theorem State.writeDsp_waiting (s : State) (n : Nat) {w : Nat} (v : BitVec w) : (s.writeDsp n v).waiting = s.waiting := rfl
@[simp] theorem State.writeDsp_savedN (s : State) (n : Nat) {w : Nat} (v : BitVec w) : (s.writeDsp n v).savedN = s.savedN := rfl
@[simp] theorem State.writeDsp_savedE (s : State) (n : Nat) {w : Nat} (v : BitVec w) : (s.writeDsp n v).savedE = s.savedE := rfl
@[simp] theorem State.writeDsp_savedI (s : State) (n : Nat) {w : Nat} (v : BitVec w) : (s.writeDsp n v).savedI = s.savedI := rfl
@[simp] theorem State.writeDsp_lastWord (s : State) (n : Nat) {w : Nat} (v : BitVec w) : (s.writeDsp n v).lastWord = s.lastWord := rfl
@[simp] theorem State.writeDsp_errorState (s : State) (n : Nat) {w : Nat} (v : BitVec w) : (s.writeDsp n v).errorState = s.errorState := rfl
@[simp] theorem State.writeDsp_errorLine (s : State) (n : Nat) {w : Nat} (v : BitVec w) : (s.writeDsp n v).errorLine = s.errorLine := rfl
@[simp] theorem State.writeDsp_ir (s : State) (n : Nat) {w : Nat} (v : BitVec w) : (s.writeDsp n v).ir = s.ir := rfl
@[simp] theorem State.writeDsp_debugDue (s : State) (n : Nat) {w : Nat} (v : BitVec w) : (s.writeDsp n v).debugDue = s.debugDue := rfl
@[simp] theorem State.writeDsp_refused (s : State) (n : Nat) {w : Nat} (v : BitVec w) : (s.writeDsp n v).refused = s.refused := rfl
@[simp] theorem State.writeDsp_inputs (s : State) (n : Nat) {w : Nat} (v : BitVec w) : (s.writeDsp n v).inputs = s.inputs := rfl
@[simp] theorem State.writeDsp_resets (s : State) (n : Nat) {w : Nat} (v : BitVec w) : (s.writeDsp n v).resets = s.resets := rfl

/-! ### writeFpr: an FPR write -/

@[simp] theorem State.writeFpr_cfg (s : State) (n : Nat) {w : Nat} (v : BitVec w) : (s.writeFpr n v).cfg = s.cfg := rfl
@[simp] theorem State.writeFpr_banks (s : State) (n : Nat) {w : Nat} (v : BitVec w) : (s.writeFpr n v).banks = s.banks := rfl
@[simp] theorem State.writeFpr_dsp (s : State) (n : Nat) {w : Nat} (v : BitVec w) : (s.writeFpr n v).dsp = s.dsp := rfl
@[simp] theorem State.writeFpr_fpr (s : State) (n : Nat) {w : Nat} (v : BitVec w) : (s.writeFpr n v).fpr = writeFile s.fpr s.cfg.fprWidth n v := rfl
@[simp] theorem State.writeFpr_ic (s : State) (n : Nat) {w : Nat} (v : BitVec w) : (s.writeFpr n v).ic = s.ic := rfl
@[simp] theorem State.writeFpr_est (s : State) (n : Nat) {w : Nat} (v : BitVec w) : (s.writeFpr n v).est = s.est := rfl
@[simp] theorem State.writeFpr_exi (s : State) (n : Nat) {w : Nat} (v : BitVec w) : (s.writeFpr n v).exi = s.exi := rfl
@[simp] theorem State.writeFpr_exc (s : State) (n : Nat) {w : Nat} (v : BitVec w) : (s.writeFpr n v).exc = s.exc := rfl
@[simp] theorem State.writeFpr_exm (s : State) (n : Nat) {w : Nat} (v : BitVec w) : (s.writeFpr n v).exm = s.exm := rfl
@[simp] theorem State.writeFpr_etb (s : State) (n : Nat) {w : Nat} (v : BitVec w) : (s.writeFpr n v).etb = s.etb := rfl
@[simp] theorem State.writeFpr_itb (s : State) (n : Nat) {w : Nat} (v : BitVec w) : (s.writeFpr n v).itb = s.itb := rfl
@[simp] theorem State.writeFpr_cid (s : State) (n : Nat) {w : Nat} (v : BitVec w) : (s.writeFpr n v).cid = s.cid := rfl
@[simp] theorem State.writeFpr_pid (s : State) (n : Nat) {w : Nat} (v : BitVec w) : (s.writeFpr n v).pid = s.pid := rfl
@[simp] theorem State.writeFpr_scr (s : State) (n : Nat) {w : Nat} (v : BitVec w) : (s.writeFpr n v).scr = s.scr := rfl
@[simp] theorem State.writeFpr_nrp (s : State) (n : Nat) {w : Nat} (v : BitVec w) : (s.writeFpr n v).nrp = s.nrp := rfl
@[simp] theorem State.writeFpr_erp (s : State) (n : Nat) {w : Nat} (v : BitVec w) : (s.writeFpr n v).erp = s.erp := rfl
@[simp] theorem State.writeFpr_ucr (s : State) (n : Nat) {w : Nat} (v : BitVec w) : (s.writeFpr n v).ucr = s.ucr := rfl
@[simp] theorem State.writeFpr_crp (s : State) (n : Nat) {w : Nat} (v : BitVec w) : (s.writeFpr n v).crp = s.crp := rfl
@[simp] theorem State.writeFpr_irp (s : State) (n : Nat) {w : Nat} (v : BitVec w) : (s.writeFpr n v).irp = s.irp := rfl
@[simp] theorem State.writeFpr_dcr (s : State) (n : Nat) {w : Nat} (v : BitVec w) : (s.writeFpr n v).dcr = s.dcr := rfl
@[simp] theorem State.writeFpr_spcExtra (s : State) (n : Nat) {w : Nat} (v : BitVec w) : (s.writeFpr n v).spcExtra = s.spcExtra := rfl
@[simp] theorem State.writeFpr_mem (s : State) (n : Nat) {w : Nat} (v : BitVec w) : (s.writeFpr n v).mem = s.mem := rfl
@[simp] theorem State.writeFpr_reservation (s : State) (n : Nat) {w : Nat} (v : BitVec w) : (s.writeFpr n v).reservation = s.reservation := rfl
@[simp] theorem State.writeFpr_irqPending (s : State) (n : Nat) {w : Nat} (v : BitVec w) : (s.writeFpr n v).irqPending = s.irqPending := rfl
@[simp] theorem State.writeFpr_nmiPending (s : State) (n : Nat) {w : Nat} (v : BitVec w) : (s.writeFpr n v).nmiPending = s.nmiPending := rfl
@[simp] theorem State.writeFpr_waitTimer (s : State) (n : Nat) {w : Nat} (v : BitVec w) : (s.writeFpr n v).waitTimer = s.waitTimer := rfl
@[simp] theorem State.writeFpr_waiting (s : State) (n : Nat) {w : Nat} (v : BitVec w) : (s.writeFpr n v).waiting = s.waiting := rfl
@[simp] theorem State.writeFpr_savedN (s : State) (n : Nat) {w : Nat} (v : BitVec w) : (s.writeFpr n v).savedN = s.savedN := rfl
@[simp] theorem State.writeFpr_savedE (s : State) (n : Nat) {w : Nat} (v : BitVec w) : (s.writeFpr n v).savedE = s.savedE := rfl
@[simp] theorem State.writeFpr_savedI (s : State) (n : Nat) {w : Nat} (v : BitVec w) : (s.writeFpr n v).savedI = s.savedI := rfl
@[simp] theorem State.writeFpr_lastWord (s : State) (n : Nat) {w : Nat} (v : BitVec w) : (s.writeFpr n v).lastWord = s.lastWord := rfl
@[simp] theorem State.writeFpr_errorState (s : State) (n : Nat) {w : Nat} (v : BitVec w) : (s.writeFpr n v).errorState = s.errorState := rfl
@[simp] theorem State.writeFpr_errorLine (s : State) (n : Nat) {w : Nat} (v : BitVec w) : (s.writeFpr n v).errorLine = s.errorLine := rfl
@[simp] theorem State.writeFpr_ir (s : State) (n : Nat) {w : Nat} (v : BitVec w) : (s.writeFpr n v).ir = s.ir := rfl
@[simp] theorem State.writeFpr_debugDue (s : State) (n : Nat) {w : Nat} (v : BitVec w) : (s.writeFpr n v).debugDue = s.debugDue := rfl
@[simp] theorem State.writeFpr_refused (s : State) (n : Nat) {w : Nat} (v : BitVec w) : (s.writeFpr n v).refused = s.refused := rfl
@[simp] theorem State.writeFpr_inputs (s : State) (n : Nat) {w : Nat} (v : BitVec w) : (s.writeFpr n v).inputs = s.inputs := rfl
@[simp] theorem State.writeFpr_resets (s : State) (n : Nat) {w : Nat} (v : BitVec w) : (s.writeFpr n v).resets = s.resets := rfl

/-! ### withSpcFile: another special register file -/

@[simp] theorem State.withSpcFile_cfg (s : State) (f : List RegBits) : (s.withSpcFile f).cfg = s.cfg := rfl
@[simp] theorem State.withSpcFile_banks (s : State) (f : List RegBits) : (s.withSpcFile f).banks = s.banks := rfl
@[simp] theorem State.withSpcFile_dsp (s : State) (f : List RegBits) : (s.withSpcFile f).dsp = s.dsp := rfl
@[simp] theorem State.withSpcFile_fpr (s : State) (f : List RegBits) : (s.withSpcFile f).fpr = s.fpr := rfl
@[simp] theorem State.withSpcFile_ic (s : State) (f : List RegBits) : (s.withSpcFile f).ic = s.ic := rfl
@[simp] theorem State.withSpcFile_est (s : State) (f : List RegBits) : (s.withSpcFile f).est = entryWord f 2 := rfl
@[simp] theorem State.withSpcFile_exi (s : State) (f : List RegBits) : (s.withSpcFile f).exi = entryWord f 3 := rfl
@[simp] theorem State.withSpcFile_exc (s : State) (f : List RegBits) : (s.withSpcFile f).exc = entryPair f 4 := rfl
@[simp] theorem State.withSpcFile_exm (s : State) (f : List RegBits) : (s.withSpcFile f).exm = entryPair f 6 := rfl
@[simp] theorem State.withSpcFile_etb (s : State) (f : List RegBits) : (s.withSpcFile f).etb = entryPair f 8 := rfl
@[simp] theorem State.withSpcFile_itb (s : State) (f : List RegBits) : (s.withSpcFile f).itb = entryPair f 10 := rfl
@[simp] theorem State.withSpcFile_cid (s : State) (f : List RegBits) : (s.withSpcFile f).cid = entryWord f 12 := rfl
@[simp] theorem State.withSpcFile_pid (s : State) (f : List RegBits) : (s.withSpcFile f).pid = entryPair f 13 := rfl
@[simp] theorem State.withSpcFile_scr (s : State) (f : List RegBits) : (s.withSpcFile f).scr = entryWord f 15 := rfl
@[simp] theorem State.withSpcFile_nrp (s : State) (f : List RegBits) : (s.withSpcFile f).nrp = entryPair f 16 := rfl
@[simp] theorem State.withSpcFile_erp (s : State) (f : List RegBits) : (s.withSpcFile f).erp = entryPair f 18 := rfl
@[simp] theorem State.withSpcFile_ucr (s : State) (f : List RegBits) : (s.withSpcFile f).ucr = entryWord f 20 := rfl
@[simp] theorem State.withSpcFile_crp (s : State) (f : List RegBits) : (s.withSpcFile f).crp = entryPair f 21 := rfl
@[simp] theorem State.withSpcFile_irp (s : State) (f : List RegBits) : (s.withSpcFile f).irp = entryPair f 23 := rfl
@[simp] theorem State.withSpcFile_dcr (s : State) (f : List RegBits) : (s.withSpcFile f).dcr = entryPair f 25 := rfl
@[simp] theorem State.withSpcFile_spcExtra (s : State) (f : List RegBits) : (s.withSpcFile f).spcExtra = ((f.drop 27).map fun r => BitVec.ofNat 32 r.toNat) := rfl
@[simp] theorem State.withSpcFile_mem (s : State) (f : List RegBits) : (s.withSpcFile f).mem = s.mem := rfl
@[simp] theorem State.withSpcFile_reservation (s : State) (f : List RegBits) : (s.withSpcFile f).reservation = s.reservation := rfl
@[simp] theorem State.withSpcFile_irqPending (s : State) (f : List RegBits) : (s.withSpcFile f).irqPending = s.irqPending := rfl
@[simp] theorem State.withSpcFile_nmiPending (s : State) (f : List RegBits) : (s.withSpcFile f).nmiPending = s.nmiPending := rfl
@[simp] theorem State.withSpcFile_waitTimer (s : State) (f : List RegBits) : (s.withSpcFile f).waitTimer = s.waitTimer := rfl
@[simp] theorem State.withSpcFile_waiting (s : State) (f : List RegBits) : (s.withSpcFile f).waiting = s.waiting := rfl
@[simp] theorem State.withSpcFile_savedN (s : State) (f : List RegBits) : (s.withSpcFile f).savedN = s.savedN := rfl
@[simp] theorem State.withSpcFile_savedE (s : State) (f : List RegBits) : (s.withSpcFile f).savedE = s.savedE := rfl
@[simp] theorem State.withSpcFile_savedI (s : State) (f : List RegBits) : (s.withSpcFile f).savedI = s.savedI := rfl
@[simp] theorem State.withSpcFile_lastWord (s : State) (f : List RegBits) : (s.withSpcFile f).lastWord = s.lastWord := rfl
@[simp] theorem State.withSpcFile_errorState (s : State) (f : List RegBits) : (s.withSpcFile f).errorState = s.errorState := rfl
@[simp] theorem State.withSpcFile_errorLine (s : State) (f : List RegBits) : (s.withSpcFile f).errorLine = s.errorLine := rfl
@[simp] theorem State.withSpcFile_ir (s : State) (f : List RegBits) : (s.withSpcFile f).ir = s.ir := rfl
@[simp] theorem State.withSpcFile_debugDue (s : State) (f : List RegBits) : (s.withSpcFile f).debugDue = s.debugDue := rfl
@[simp] theorem State.withSpcFile_refused (s : State) (f : List RegBits) : (s.withSpcFile f).refused = s.refused := rfl
@[simp] theorem State.withSpcFile_inputs (s : State) (f : List RegBits) : (s.withSpcFile f).inputs = s.inputs := rfl
@[simp] theorem State.withSpcFile_resets (s : State) (f : List RegBits) : (s.withSpcFile f).resets = s.resets := rfl

/-! ### advance: IC + 1 -/

@[simp] theorem State.advance_cfg (s : State) : (s.advance).cfg = s.cfg := rfl
@[simp] theorem State.advance_banks (s : State) : (s.advance).banks = s.banks := rfl
@[simp] theorem State.advance_dsp (s : State) : (s.advance).dsp = s.dsp := rfl
@[simp] theorem State.advance_fpr (s : State) : (s.advance).fpr = s.fpr := rfl
@[simp] theorem State.advance_ic (s : State) : (s.advance).ic = s.icNext := rfl
@[simp] theorem State.advance_est (s : State) : (s.advance).est = s.est := rfl
@[simp] theorem State.advance_exi (s : State) : (s.advance).exi = s.exi := rfl
@[simp] theorem State.advance_exc (s : State) : (s.advance).exc = s.exc := rfl
@[simp] theorem State.advance_exm (s : State) : (s.advance).exm = s.exm := rfl
@[simp] theorem State.advance_etb (s : State) : (s.advance).etb = s.etb := rfl
@[simp] theorem State.advance_itb (s : State) : (s.advance).itb = s.itb := rfl
@[simp] theorem State.advance_cid (s : State) : (s.advance).cid = s.cid := rfl
@[simp] theorem State.advance_pid (s : State) : (s.advance).pid = s.pid := rfl
@[simp] theorem State.advance_scr (s : State) : (s.advance).scr = s.scr := rfl
@[simp] theorem State.advance_nrp (s : State) : (s.advance).nrp = s.nrp := rfl
@[simp] theorem State.advance_erp (s : State) : (s.advance).erp = s.erp := rfl
@[simp] theorem State.advance_ucr (s : State) : (s.advance).ucr = s.ucr := rfl
@[simp] theorem State.advance_crp (s : State) : (s.advance).crp = s.crp := rfl
@[simp] theorem State.advance_irp (s : State) : (s.advance).irp = s.irp := rfl
@[simp] theorem State.advance_dcr (s : State) : (s.advance).dcr = s.dcr := rfl
@[simp] theorem State.advance_spcExtra (s : State) : (s.advance).spcExtra = s.spcExtra := rfl
@[simp] theorem State.advance_mem (s : State) : (s.advance).mem = s.mem := rfl
@[simp] theorem State.advance_reservation (s : State) : (s.advance).reservation = s.reservation := rfl
@[simp] theorem State.advance_irqPending (s : State) : (s.advance).irqPending = s.irqPending := rfl
@[simp] theorem State.advance_nmiPending (s : State) : (s.advance).nmiPending = s.nmiPending := rfl
@[simp] theorem State.advance_waitTimer (s : State) : (s.advance).waitTimer = s.waitTimer := rfl
@[simp] theorem State.advance_waiting (s : State) : (s.advance).waiting = s.waiting := rfl
@[simp] theorem State.advance_savedN (s : State) : (s.advance).savedN = s.savedN := rfl
@[simp] theorem State.advance_savedE (s : State) : (s.advance).savedE = s.savedE := rfl
@[simp] theorem State.advance_savedI (s : State) : (s.advance).savedI = s.savedI := rfl
@[simp] theorem State.advance_lastWord (s : State) : (s.advance).lastWord = s.lastWord := rfl
@[simp] theorem State.advance_errorState (s : State) : (s.advance).errorState = s.errorState := rfl
@[simp] theorem State.advance_errorLine (s : State) : (s.advance).errorLine = s.errorLine := rfl
@[simp] theorem State.advance_ir (s : State) : (s.advance).ir = s.ir := rfl
@[simp] theorem State.advance_debugDue (s : State) : (s.advance).debugDue = s.debugDue := rfl
@[simp] theorem State.advance_refused (s : State) : (s.advance).refused = s.refused := rfl
@[simp] theorem State.advance_inputs (s : State) : (s.advance).inputs = s.inputs := rfl
@[simp] theorem State.advance_resets (s : State) : (s.advance).resets = s.resets := rfl

/-! ### memWrite: a memory write -/

@[simp] theorem State.memWrite_cfg (s : State) (addr n v : Nat) : (s.memWrite addr n v).cfg = s.cfg := rfl
@[simp] theorem State.memWrite_banks (s : State) (addr n v : Nat) : (s.memWrite addr n v).banks = s.banks := rfl
@[simp] theorem State.memWrite_dsp (s : State) (addr n v : Nat) : (s.memWrite addr n v).dsp = s.dsp := rfl
@[simp] theorem State.memWrite_fpr (s : State) (addr n v : Nat) : (s.memWrite addr n v).fpr = s.fpr := rfl
@[simp] theorem State.memWrite_ic (s : State) (addr n v : Nat) : (s.memWrite addr n v).ic = s.ic := rfl
@[simp] theorem State.memWrite_est (s : State) (addr n v : Nat) : (s.memWrite addr n v).est = s.est := rfl
@[simp] theorem State.memWrite_exi (s : State) (addr n v : Nat) : (s.memWrite addr n v).exi = s.exi := rfl
@[simp] theorem State.memWrite_exc (s : State) (addr n v : Nat) : (s.memWrite addr n v).exc = s.exc := rfl
@[simp] theorem State.memWrite_exm (s : State) (addr n v : Nat) : (s.memWrite addr n v).exm = s.exm := rfl
@[simp] theorem State.memWrite_etb (s : State) (addr n v : Nat) : (s.memWrite addr n v).etb = s.etb := rfl
@[simp] theorem State.memWrite_itb (s : State) (addr n v : Nat) : (s.memWrite addr n v).itb = s.itb := rfl
@[simp] theorem State.memWrite_cid (s : State) (addr n v : Nat) : (s.memWrite addr n v).cid = s.cid := rfl
@[simp] theorem State.memWrite_pid (s : State) (addr n v : Nat) : (s.memWrite addr n v).pid = s.pid := rfl
@[simp] theorem State.memWrite_scr (s : State) (addr n v : Nat) : (s.memWrite addr n v).scr = s.scr := rfl
@[simp] theorem State.memWrite_nrp (s : State) (addr n v : Nat) : (s.memWrite addr n v).nrp = s.nrp := rfl
@[simp] theorem State.memWrite_erp (s : State) (addr n v : Nat) : (s.memWrite addr n v).erp = s.erp := rfl
@[simp] theorem State.memWrite_ucr (s : State) (addr n v : Nat) : (s.memWrite addr n v).ucr = s.ucr := rfl
@[simp] theorem State.memWrite_crp (s : State) (addr n v : Nat) : (s.memWrite addr n v).crp = s.crp := rfl
@[simp] theorem State.memWrite_irp (s : State) (addr n v : Nat) : (s.memWrite addr n v).irp = s.irp := rfl
@[simp] theorem State.memWrite_dcr (s : State) (addr n v : Nat) : (s.memWrite addr n v).dcr = s.dcr := rfl
@[simp] theorem State.memWrite_spcExtra (s : State) (addr n v : Nat) : (s.memWrite addr n v).spcExtra = s.spcExtra := rfl
@[simp] theorem State.memWrite_mem (s : State) (addr n v : Nat) : (s.memWrite addr n v).mem = Memory.writeBytes s.cfg s.mem addr n v n := rfl
@[simp] theorem State.memWrite_reservation (s : State) (addr n v : Nat) : (s.memWrite addr n v).reservation = s.reservation := rfl
@[simp] theorem State.memWrite_irqPending (s : State) (addr n v : Nat) : (s.memWrite addr n v).irqPending = s.irqPending := rfl
@[simp] theorem State.memWrite_nmiPending (s : State) (addr n v : Nat) : (s.memWrite addr n v).nmiPending = s.nmiPending := rfl
@[simp] theorem State.memWrite_waitTimer (s : State) (addr n v : Nat) : (s.memWrite addr n v).waitTimer = s.waitTimer := rfl
@[simp] theorem State.memWrite_waiting (s : State) (addr n v : Nat) : (s.memWrite addr n v).waiting = s.waiting := rfl
@[simp] theorem State.memWrite_savedN (s : State) (addr n v : Nat) : (s.memWrite addr n v).savedN = s.savedN := rfl
@[simp] theorem State.memWrite_savedE (s : State) (addr n v : Nat) : (s.memWrite addr n v).savedE = s.savedE := rfl
@[simp] theorem State.memWrite_savedI (s : State) (addr n v : Nat) : (s.memWrite addr n v).savedI = s.savedI := rfl
@[simp] theorem State.memWrite_lastWord (s : State) (addr n v : Nat) : (s.memWrite addr n v).lastWord = s.lastWord := rfl
@[simp] theorem State.memWrite_errorState (s : State) (addr n v : Nat) : (s.memWrite addr n v).errorState = s.errorState := rfl
@[simp] theorem State.memWrite_errorLine (s : State) (addr n v : Nat) : (s.memWrite addr n v).errorLine = s.errorLine := rfl
@[simp] theorem State.memWrite_ir (s : State) (addr n v : Nat) : (s.memWrite addr n v).ir = s.ir := rfl
@[simp] theorem State.memWrite_debugDue (s : State) (addr n v : Nat) : (s.memWrite addr n v).debugDue = s.debugDue := rfl
@[simp] theorem State.memWrite_refused (s : State) (addr n v : Nat) : (s.memWrite addr n v).refused = s.refused := rfl
@[simp] theorem State.memWrite_inputs (s : State) (addr n v : Nat) : (s.memWrite addr n v).inputs = s.inputs := rfl
@[simp] theorem State.memWrite_resets (s : State) (addr n v : Nat) : (s.memWrite addr n v).resets = s.resets := rfl

/-! ### enterException: an exception entry -/

@[simp] theorem State.enterException_cfg (s : State) (rp : DWord) : (s.enterException rp).cfg = s.cfg := rfl
@[simp] theorem State.enterException_banks (s : State) (rp : DWord) : (s.enterException rp).banks = s.banks := rfl
@[simp] theorem State.enterException_dsp (s : State) (rp : DWord) : (s.enterException rp).dsp = s.dsp := rfl
@[simp] theorem State.enterException_fpr (s : State) (rp : DWord) : (s.enterException rp).fpr = s.fpr := rfl
@[simp] theorem State.enterException_ic (s : State) (rp : DWord) : (s.enterException rp).ic = wrapIc s.cfg s.etb := rfl
@[simp] theorem State.enterException_est (s : State) (rp : DWord) : (s.enterException rp).est = s.est := rfl
@[simp] theorem State.enterException_exi (s : State) (rp : DWord) : (s.enterException rp).exi = s.exi := rfl
@[simp] theorem State.enterException_exc (s : State) (rp : DWord) : (s.enterException rp).exc = s.exc := rfl
@[simp] theorem State.enterException_exm (s : State) (rp : DWord) : (s.enterException rp).exm = s.exm := rfl
@[simp] theorem State.enterException_etb (s : State) (rp : DWord) : (s.enterException rp).etb = s.etb := rfl
@[simp] theorem State.enterException_itb (s : State) (rp : DWord) : (s.enterException rp).itb = s.itb := rfl
@[simp] theorem State.enterException_cid (s : State) (rp : DWord) : (s.enterException rp).cid = s.cid := rfl
@[simp] theorem State.enterException_pid (s : State) (rp : DWord) : (s.enterException rp).pid = s.pid := rfl
@[simp] theorem State.enterException_scr (s : State) (rp : DWord) : (s.enterException rp).scr = withSavedBits s.scr ⟨true, false, false⟩ := rfl
@[simp] theorem State.enterException_nrp (s : State) (rp : DWord) : (s.enterException rp).nrp = s.nrp := rfl
@[simp] theorem State.enterException_erp (s : State) (rp : DWord) : (s.enterException rp).erp = rp := rfl
@[simp] theorem State.enterException_ucr (s : State) (rp : DWord) : (s.enterException rp).ucr = s.ucr := rfl
@[simp] theorem State.enterException_crp (s : State) (rp : DWord) : (s.enterException rp).crp = s.crp := rfl
@[simp] theorem State.enterException_irp (s : State) (rp : DWord) : (s.enterException rp).irp = s.irp := rfl
@[simp] theorem State.enterException_dcr (s : State) (rp : DWord) : (s.enterException rp).dcr = s.dcr := rfl
@[simp] theorem State.enterException_spcExtra (s : State) (rp : DWord) : (s.enterException rp).spcExtra = s.spcExtra := rfl
@[simp] theorem State.enterException_mem (s : State) (rp : DWord) : (s.enterException rp).mem = s.mem := rfl
@[simp] theorem State.enterException_reservation (s : State) (rp : DWord) : (s.enterException rp).reservation = s.reservation := rfl
@[simp] theorem State.enterException_irqPending (s : State) (rp : DWord) : (s.enterException rp).irqPending = s.irqPending := rfl
@[simp] theorem State.enterException_nmiPending (s : State) (rp : DWord) : (s.enterException rp).nmiPending = s.nmiPending := rfl
@[simp] theorem State.enterException_waitTimer (s : State) (rp : DWord) : (s.enterException rp).waitTimer = s.waitTimer := rfl
@[simp] theorem State.enterException_waiting (s : State) (rp : DWord) : (s.enterException rp).waiting = s.waiting := rfl
@[simp] theorem State.enterException_savedN (s : State) (rp : DWord) : (s.enterException rp).savedN = s.savedN := rfl
@[simp] theorem State.enterException_savedE (s : State) (rp : DWord) : (s.enterException rp).savedE = some (savedBits s.scr) := rfl
@[simp] theorem State.enterException_savedI (s : State) (rp : DWord) : (s.enterException rp).savedI = s.savedI := rfl
@[simp] theorem State.enterException_lastWord (s : State) (rp : DWord) : (s.enterException rp).lastWord = s.lastWord := rfl
@[simp] theorem State.enterException_errorState (s : State) (rp : DWord) : (s.enterException rp).errorState = s.errorState := rfl
@[simp] theorem State.enterException_errorLine (s : State) (rp : DWord) : (s.enterException rp).errorLine = s.errorLine := rfl
@[simp] theorem State.enterException_ir (s : State) (rp : DWord) : (s.enterException rp).ir = s.ir := rfl
@[simp] theorem State.enterException_debugDue (s : State) (rp : DWord) : (s.enterException rp).debugDue = s.debugDue := rfl
@[simp] theorem State.enterException_refused (s : State) (rp : DWord) : (s.enterException rp).refused = s.refused := rfl
@[simp] theorem State.enterException_inputs (s : State) (rp : DWord) : (s.enterException rp).inputs = s.inputs := rfl
@[simp] theorem State.enterException_resets (s : State) (rp : DWord) : (s.enterException rp).resets = s.resets := rfl

/-! ### enterNmi: an NMI entry -/

@[simp] theorem State.enterNmi_cfg (s : State) : (s.enterNmi).cfg = s.cfg := rfl
@[simp] theorem State.enterNmi_banks (s : State) : (s.enterNmi).banks = s.banks := rfl
@[simp] theorem State.enterNmi_dsp (s : State) : (s.enterNmi).dsp = s.dsp := rfl
@[simp] theorem State.enterNmi_fpr (s : State) : (s.enterNmi).fpr = s.fpr := rfl
@[simp] theorem State.enterNmi_ic (s : State) : (s.enterNmi).ic = wrapIc s.cfg s.etb := rfl
@[simp] theorem State.enterNmi_est (s : State) : (s.enterNmi).est = s.est := rfl
@[simp] theorem State.enterNmi_exi (s : State) : (s.enterNmi).exi = s.lastWord := rfl
@[simp] theorem State.enterNmi_exc (s : State) : (s.enterNmi).exc = s.exc ||| Exc.nmi.bit := rfl
@[simp] theorem State.enterNmi_exm (s : State) : (s.enterNmi).exm = s.exm := rfl
@[simp] theorem State.enterNmi_etb (s : State) : (s.enterNmi).etb = s.etb := rfl
@[simp] theorem State.enterNmi_itb (s : State) : (s.enterNmi).itb = s.itb := rfl
@[simp] theorem State.enterNmi_cid (s : State) : (s.enterNmi).cid = s.cid := rfl
@[simp] theorem State.enterNmi_pid (s : State) : (s.enterNmi).pid = s.pid := rfl
@[simp] theorem State.enterNmi_scr (s : State) : (s.enterNmi).scr = withSavedBits s.scr ⟨true, false, false⟩ := rfl
@[simp] theorem State.enterNmi_nrp (s : State) : (s.enterNmi).nrp = s.ic := rfl
@[simp] theorem State.enterNmi_erp (s : State) : (s.enterNmi).erp = s.erp := rfl
@[simp] theorem State.enterNmi_ucr (s : State) : (s.enterNmi).ucr = s.ucr := rfl
@[simp] theorem State.enterNmi_crp (s : State) : (s.enterNmi).crp = s.crp := rfl
@[simp] theorem State.enterNmi_irp (s : State) : (s.enterNmi).irp = s.irp := rfl
@[simp] theorem State.enterNmi_dcr (s : State) : (s.enterNmi).dcr = s.dcr := rfl
@[simp] theorem State.enterNmi_spcExtra (s : State) : (s.enterNmi).spcExtra = s.spcExtra := rfl
@[simp] theorem State.enterNmi_mem (s : State) : (s.enterNmi).mem = s.mem := rfl
@[simp] theorem State.enterNmi_reservation (s : State) : (s.enterNmi).reservation = s.reservation := rfl
@[simp] theorem State.enterNmi_irqPending (s : State) : (s.enterNmi).irqPending = s.irqPending := rfl
@[simp] theorem State.enterNmi_nmiPending (s : State) : (s.enterNmi).nmiPending = false := rfl
@[simp] theorem State.enterNmi_waitTimer (s : State) : (s.enterNmi).waitTimer = s.waitTimer := rfl
@[simp] theorem State.enterNmi_waiting (s : State) : (s.enterNmi).waiting = s.waiting := rfl
@[simp] theorem State.enterNmi_savedN (s : State) : (s.enterNmi).savedN = some (savedBits s.scr) := rfl
@[simp] theorem State.enterNmi_savedE (s : State) : (s.enterNmi).savedE = s.savedE := rfl
@[simp] theorem State.enterNmi_savedI (s : State) : (s.enterNmi).savedI = s.savedI := rfl
@[simp] theorem State.enterNmi_lastWord (s : State) : (s.enterNmi).lastWord = s.lastWord := rfl
@[simp] theorem State.enterNmi_errorState (s : State) : (s.enterNmi).errorState = s.errorState := rfl
@[simp] theorem State.enterNmi_errorLine (s : State) : (s.enterNmi).errorLine = s.errorLine := rfl
@[simp] theorem State.enterNmi_ir (s : State) : (s.enterNmi).ir = s.ir := rfl
@[simp] theorem State.enterNmi_debugDue (s : State) : (s.enterNmi).debugDue = false := rfl
@[simp] theorem State.enterNmi_refused (s : State) : (s.enterNmi).refused = s.refused := rfl
@[simp] theorem State.enterNmi_inputs (s : State) : (s.enterNmi).inputs = s.inputs := rfl
@[simp] theorem State.enterNmi_resets (s : State) : (s.enterNmi).resets = s.resets := rfl

/-! ### enterInterrupt: an interrupt entry -/

@[simp] theorem State.enterInterrupt_cfg (s : State) : (s.enterInterrupt).cfg = s.cfg := rfl
@[simp] theorem State.enterInterrupt_banks (s : State) : (s.enterInterrupt).banks = s.banks := rfl
@[simp] theorem State.enterInterrupt_dsp (s : State) : (s.enterInterrupt).dsp = s.dsp := rfl
@[simp] theorem State.enterInterrupt_fpr (s : State) : (s.enterInterrupt).fpr = s.fpr := rfl
@[simp] theorem State.enterInterrupt_ic (s : State) : (s.enterInterrupt).ic = wrapIc s.cfg s.itb := rfl
@[simp] theorem State.enterInterrupt_est (s : State) : (s.enterInterrupt).est = s.est := rfl
@[simp] theorem State.enterInterrupt_exi (s : State) : (s.enterInterrupt).exi = s.exi := rfl
@[simp] theorem State.enterInterrupt_exc (s : State) : (s.enterInterrupt).exc = s.exc := rfl
@[simp] theorem State.enterInterrupt_exm (s : State) : (s.enterInterrupt).exm = s.exm := rfl
@[simp] theorem State.enterInterrupt_etb (s : State) : (s.enterInterrupt).etb = s.etb := rfl
@[simp] theorem State.enterInterrupt_itb (s : State) : (s.enterInterrupt).itb = s.itb := rfl
@[simp] theorem State.enterInterrupt_cid (s : State) : (s.enterInterrupt).cid = s.cid := rfl
@[simp] theorem State.enterInterrupt_pid (s : State) : (s.enterInterrupt).pid = s.pid := rfl
@[simp] theorem State.enterInterrupt_scr (s : State) : (s.enterInterrupt).scr = withSavedBits s.scr ⟨true, s.scr.getLsbD 2, false⟩ := rfl
@[simp] theorem State.enterInterrupt_nrp (s : State) : (s.enterInterrupt).nrp = s.nrp := rfl
@[simp] theorem State.enterInterrupt_erp (s : State) : (s.enterInterrupt).erp = s.erp := rfl
@[simp] theorem State.enterInterrupt_ucr (s : State) : (s.enterInterrupt).ucr = s.ucr := rfl
@[simp] theorem State.enterInterrupt_crp (s : State) : (s.enterInterrupt).crp = s.crp := rfl
@[simp] theorem State.enterInterrupt_irp (s : State) : (s.enterInterrupt).irp = s.ic := rfl
@[simp] theorem State.enterInterrupt_dcr (s : State) : (s.enterInterrupt).dcr = s.dcr := rfl
@[simp] theorem State.enterInterrupt_spcExtra (s : State) : (s.enterInterrupt).spcExtra = s.spcExtra := rfl
@[simp] theorem State.enterInterrupt_mem (s : State) : (s.enterInterrupt).mem = s.mem := rfl
@[simp] theorem State.enterInterrupt_reservation (s : State) : (s.enterInterrupt).reservation = s.reservation := rfl
@[simp] theorem State.enterInterrupt_irqPending (s : State) : (s.enterInterrupt).irqPending = false := rfl
@[simp] theorem State.enterInterrupt_nmiPending (s : State) : (s.enterInterrupt).nmiPending = s.nmiPending := rfl
@[simp] theorem State.enterInterrupt_waitTimer (s : State) : (s.enterInterrupt).waitTimer = s.waitTimer := rfl
@[simp] theorem State.enterInterrupt_waiting (s : State) : (s.enterInterrupt).waiting = s.waiting := rfl
@[simp] theorem State.enterInterrupt_savedN (s : State) : (s.enterInterrupt).savedN = s.savedN := rfl
@[simp] theorem State.enterInterrupt_savedE (s : State) : (s.enterInterrupt).savedE = s.savedE := rfl
@[simp] theorem State.enterInterrupt_savedI (s : State) : (s.enterInterrupt).savedI = some (s.scr.getLsbD 3) := rfl
@[simp] theorem State.enterInterrupt_lastWord (s : State) : (s.enterInterrupt).lastWord = s.lastWord := rfl
@[simp] theorem State.enterInterrupt_errorState (s : State) : (s.enterInterrupt).errorState = s.errorState := rfl
@[simp] theorem State.enterInterrupt_errorLine (s : State) : (s.enterInterrupt).errorLine = s.errorLine := rfl
@[simp] theorem State.enterInterrupt_ir (s : State) : (s.enterInterrupt).ir = s.ir := rfl
@[simp] theorem State.enterInterrupt_debugDue (s : State) : (s.enterInterrupt).debugDue = s.debugDue := rfl
@[simp] theorem State.enterInterrupt_refused (s : State) : (s.enterInterrupt).refused = s.refused := rfl
@[simp] theorem State.enterInterrupt_inputs (s : State) : (s.enterInterrupt).inputs = s.inputs := rfl
@[simp] theorem State.enterInterrupt_resets (s : State) : (s.enterInterrupt).resets = s.resets := rfl

/-! ### leaveException: a return from an exception handler -/

@[simp] theorem State.leaveException_cfg (s : State) (p : Bool) : (s.leaveException p).cfg = s.cfg := rfl
@[simp] theorem State.leaveException_banks (s : State) (p : Bool) : (s.leaveException p).banks = s.banks := rfl
@[simp] theorem State.leaveException_dsp (s : State) (p : Bool) : (s.leaveException p).dsp = s.dsp := rfl
@[simp] theorem State.leaveException_fpr (s : State) (p : Bool) : (s.leaveException p).fpr = s.fpr := rfl
@[simp] theorem State.leaveException_ic (s : State) (p : Bool) : (s.leaveException p).ic = returnTarget s.cfg p s.erp := rfl
@[simp] theorem State.leaveException_est (s : State) (p : Bool) : (s.leaveException p).est = s.est := rfl
@[simp] theorem State.leaveException_exi (s : State) (p : Bool) : (s.leaveException p).exi = s.exi := rfl
@[simp] theorem State.leaveException_exc (s : State) (p : Bool) : (s.leaveException p).exc = s.exc := rfl
@[simp] theorem State.leaveException_exm (s : State) (p : Bool) : (s.leaveException p).exm = s.exm := rfl
@[simp] theorem State.leaveException_etb (s : State) (p : Bool) : (s.leaveException p).etb = s.etb := rfl
@[simp] theorem State.leaveException_itb (s : State) (p : Bool) : (s.leaveException p).itb = s.itb := rfl
@[simp] theorem State.leaveException_cid (s : State) (p : Bool) : (s.leaveException p).cid = s.cid := rfl
@[simp] theorem State.leaveException_pid (s : State) (p : Bool) : (s.leaveException p).pid = s.pid := rfl
@[simp] theorem State.leaveException_scr (s : State) (p : Bool) : (s.leaveException p).scr = restoreScr s.scr s.savedE := rfl
@[simp] theorem State.leaveException_nrp (s : State) (p : Bool) : (s.leaveException p).nrp = s.nrp := rfl
@[simp] theorem State.leaveException_erp (s : State) (p : Bool) : (s.leaveException p).erp = s.erp := rfl
@[simp] theorem State.leaveException_ucr (s : State) (p : Bool) : (s.leaveException p).ucr = s.ucr := rfl
@[simp] theorem State.leaveException_crp (s : State) (p : Bool) : (s.leaveException p).crp = s.crp := rfl
@[simp] theorem State.leaveException_irp (s : State) (p : Bool) : (s.leaveException p).irp = s.irp := rfl
@[simp] theorem State.leaveException_dcr (s : State) (p : Bool) : (s.leaveException p).dcr = s.dcr := rfl
@[simp] theorem State.leaveException_spcExtra (s : State) (p : Bool) : (s.leaveException p).spcExtra = s.spcExtra := rfl
@[simp] theorem State.leaveException_mem (s : State) (p : Bool) : (s.leaveException p).mem = s.mem := rfl
@[simp] theorem State.leaveException_reservation (s : State) (p : Bool) : (s.leaveException p).reservation = s.reservation := rfl
@[simp] theorem State.leaveException_irqPending (s : State) (p : Bool) : (s.leaveException p).irqPending = s.irqPending := rfl
@[simp] theorem State.leaveException_nmiPending (s : State) (p : Bool) : (s.leaveException p).nmiPending = s.nmiPending := rfl
@[simp] theorem State.leaveException_waitTimer (s : State) (p : Bool) : (s.leaveException p).waitTimer = s.waitTimer := rfl
@[simp] theorem State.leaveException_waiting (s : State) (p : Bool) : (s.leaveException p).waiting = s.waiting := rfl
@[simp] theorem State.leaveException_savedN (s : State) (p : Bool) : (s.leaveException p).savedN = s.savedN := rfl
@[simp] theorem State.leaveException_savedE (s : State) (p : Bool) : (s.leaveException p).savedE = none := rfl
@[simp] theorem State.leaveException_savedI (s : State) (p : Bool) : (s.leaveException p).savedI = s.savedI := rfl
@[simp] theorem State.leaveException_lastWord (s : State) (p : Bool) : (s.leaveException p).lastWord = s.lastWord := rfl
@[simp] theorem State.leaveException_errorState (s : State) (p : Bool) : (s.leaveException p).errorState = s.errorState := rfl
@[simp] theorem State.leaveException_errorLine (s : State) (p : Bool) : (s.leaveException p).errorLine = s.errorLine := rfl
@[simp] theorem State.leaveException_ir (s : State) (p : Bool) : (s.leaveException p).ir = s.ir := rfl
@[simp] theorem State.leaveException_debugDue (s : State) (p : Bool) : (s.leaveException p).debugDue = s.debugDue := rfl
@[simp] theorem State.leaveException_refused (s : State) (p : Bool) : (s.leaveException p).refused = s.refused := rfl
@[simp] theorem State.leaveException_inputs (s : State) (p : Bool) : (s.leaveException p).inputs = s.inputs := rfl
@[simp] theorem State.leaveException_resets (s : State) (p : Bool) : (s.leaveException p).resets = s.resets := rfl

/-! ### leaveNmi: a return from the NMI handler -/

@[simp] theorem State.leaveNmi_cfg (s : State) (p : Bool) : (s.leaveNmi p).cfg = s.cfg := rfl
@[simp] theorem State.leaveNmi_banks (s : State) (p : Bool) : (s.leaveNmi p).banks = s.banks := rfl
@[simp] theorem State.leaveNmi_dsp (s : State) (p : Bool) : (s.leaveNmi p).dsp = s.dsp := rfl
@[simp] theorem State.leaveNmi_fpr (s : State) (p : Bool) : (s.leaveNmi p).fpr = s.fpr := rfl
@[simp] theorem State.leaveNmi_ic (s : State) (p : Bool) : (s.leaveNmi p).ic = returnTarget s.cfg p s.nrp := rfl
@[simp] theorem State.leaveNmi_est (s : State) (p : Bool) : (s.leaveNmi p).est = s.est := rfl
@[simp] theorem State.leaveNmi_exi (s : State) (p : Bool) : (s.leaveNmi p).exi = s.exi := rfl
@[simp] theorem State.leaveNmi_exc (s : State) (p : Bool) : (s.leaveNmi p).exc = s.exc := rfl
@[simp] theorem State.leaveNmi_exm (s : State) (p : Bool) : (s.leaveNmi p).exm = s.exm := rfl
@[simp] theorem State.leaveNmi_etb (s : State) (p : Bool) : (s.leaveNmi p).etb = s.etb := rfl
@[simp] theorem State.leaveNmi_itb (s : State) (p : Bool) : (s.leaveNmi p).itb = s.itb := rfl
@[simp] theorem State.leaveNmi_cid (s : State) (p : Bool) : (s.leaveNmi p).cid = s.cid := rfl
@[simp] theorem State.leaveNmi_pid (s : State) (p : Bool) : (s.leaveNmi p).pid = s.pid := rfl
@[simp] theorem State.leaveNmi_scr (s : State) (p : Bool) : (s.leaveNmi p).scr = restoreScr s.scr s.savedN := rfl
@[simp] theorem State.leaveNmi_nrp (s : State) (p : Bool) : (s.leaveNmi p).nrp = s.nrp := rfl
@[simp] theorem State.leaveNmi_erp (s : State) (p : Bool) : (s.leaveNmi p).erp = s.erp := rfl
@[simp] theorem State.leaveNmi_ucr (s : State) (p : Bool) : (s.leaveNmi p).ucr = s.ucr := rfl
@[simp] theorem State.leaveNmi_crp (s : State) (p : Bool) : (s.leaveNmi p).crp = s.crp := rfl
@[simp] theorem State.leaveNmi_irp (s : State) (p : Bool) : (s.leaveNmi p).irp = s.irp := rfl
@[simp] theorem State.leaveNmi_dcr (s : State) (p : Bool) : (s.leaveNmi p).dcr = s.dcr := rfl
@[simp] theorem State.leaveNmi_spcExtra (s : State) (p : Bool) : (s.leaveNmi p).spcExtra = s.spcExtra := rfl
@[simp] theorem State.leaveNmi_mem (s : State) (p : Bool) : (s.leaveNmi p).mem = s.mem := rfl
@[simp] theorem State.leaveNmi_reservation (s : State) (p : Bool) : (s.leaveNmi p).reservation = s.reservation := rfl
@[simp] theorem State.leaveNmi_irqPending (s : State) (p : Bool) : (s.leaveNmi p).irqPending = s.irqPending := rfl
@[simp] theorem State.leaveNmi_nmiPending (s : State) (p : Bool) : (s.leaveNmi p).nmiPending = s.nmiPending := rfl
@[simp] theorem State.leaveNmi_waitTimer (s : State) (p : Bool) : (s.leaveNmi p).waitTimer = s.waitTimer := rfl
@[simp] theorem State.leaveNmi_waiting (s : State) (p : Bool) : (s.leaveNmi p).waiting = s.waiting := rfl
@[simp] theorem State.leaveNmi_savedN (s : State) (p : Bool) : (s.leaveNmi p).savedN = none := rfl
@[simp] theorem State.leaveNmi_savedE (s : State) (p : Bool) : (s.leaveNmi p).savedE = s.savedE := rfl
@[simp] theorem State.leaveNmi_savedI (s : State) (p : Bool) : (s.leaveNmi p).savedI = s.savedI := rfl
@[simp] theorem State.leaveNmi_lastWord (s : State) (p : Bool) : (s.leaveNmi p).lastWord = s.lastWord := rfl
@[simp] theorem State.leaveNmi_errorState (s : State) (p : Bool) : (s.leaveNmi p).errorState = s.errorState := rfl
@[simp] theorem State.leaveNmi_errorLine (s : State) (p : Bool) : (s.leaveNmi p).errorLine = s.errorLine := rfl
@[simp] theorem State.leaveNmi_ir (s : State) (p : Bool) : (s.leaveNmi p).ir = s.ir := rfl
@[simp] theorem State.leaveNmi_debugDue (s : State) (p : Bool) : (s.leaveNmi p).debugDue = s.debugDue := rfl
@[simp] theorem State.leaveNmi_refused (s : State) (p : Bool) : (s.leaveNmi p).refused = s.refused := rfl
@[simp] theorem State.leaveNmi_inputs (s : State) (p : Bool) : (s.leaveNmi p).inputs = s.inputs := rfl
@[simp] theorem State.leaveNmi_resets (s : State) (p : Bool) : (s.leaveNmi p).resets = s.resets := rfl

/-! ### leaveInterrupt: a return from an interrupt handler -/

@[simp] theorem State.leaveInterrupt_cfg (s : State) (p : Bool) : (s.leaveInterrupt p).cfg = s.cfg := rfl
@[simp] theorem State.leaveInterrupt_banks (s : State) (p : Bool) : (s.leaveInterrupt p).banks = s.banks := rfl
@[simp] theorem State.leaveInterrupt_dsp (s : State) (p : Bool) : (s.leaveInterrupt p).dsp = s.dsp := rfl
@[simp] theorem State.leaveInterrupt_fpr (s : State) (p : Bool) : (s.leaveInterrupt p).fpr = s.fpr := rfl
@[simp] theorem State.leaveInterrupt_ic (s : State) (p : Bool) : (s.leaveInterrupt p).ic = returnTarget s.cfg p s.irp := rfl
@[simp] theorem State.leaveInterrupt_est (s : State) (p : Bool) : (s.leaveInterrupt p).est = s.est := rfl
@[simp] theorem State.leaveInterrupt_exi (s : State) (p : Bool) : (s.leaveInterrupt p).exi = s.exi := rfl
@[simp] theorem State.leaveInterrupt_exc (s : State) (p : Bool) : (s.leaveInterrupt p).exc = s.exc := rfl
@[simp] theorem State.leaveInterrupt_exm (s : State) (p : Bool) : (s.leaveInterrupt p).exm = s.exm := rfl
@[simp] theorem State.leaveInterrupt_etb (s : State) (p : Bool) : (s.leaveInterrupt p).etb = s.etb := rfl
@[simp] theorem State.leaveInterrupt_itb (s : State) (p : Bool) : (s.leaveInterrupt p).itb = s.itb := rfl
@[simp] theorem State.leaveInterrupt_cid (s : State) (p : Bool) : (s.leaveInterrupt p).cid = s.cid := rfl
@[simp] theorem State.leaveInterrupt_pid (s : State) (p : Bool) : (s.leaveInterrupt p).pid = s.pid := rfl
@[simp] theorem State.leaveInterrupt_scr (s : State) (p : Bool) : (s.leaveInterrupt p).scr = restoreScr s.scr (s.savedI.map fun i => ⟨s.scr.getLsbD 0, s.scr.getLsbD 2, i⟩) := rfl
@[simp] theorem State.leaveInterrupt_nrp (s : State) (p : Bool) : (s.leaveInterrupt p).nrp = s.nrp := rfl
@[simp] theorem State.leaveInterrupt_erp (s : State) (p : Bool) : (s.leaveInterrupt p).erp = s.erp := rfl
@[simp] theorem State.leaveInterrupt_ucr (s : State) (p : Bool) : (s.leaveInterrupt p).ucr = s.ucr := rfl
@[simp] theorem State.leaveInterrupt_crp (s : State) (p : Bool) : (s.leaveInterrupt p).crp = s.crp := rfl
@[simp] theorem State.leaveInterrupt_irp (s : State) (p : Bool) : (s.leaveInterrupt p).irp = s.irp := rfl
@[simp] theorem State.leaveInterrupt_dcr (s : State) (p : Bool) : (s.leaveInterrupt p).dcr = s.dcr := rfl
@[simp] theorem State.leaveInterrupt_spcExtra (s : State) (p : Bool) : (s.leaveInterrupt p).spcExtra = s.spcExtra := rfl
@[simp] theorem State.leaveInterrupt_mem (s : State) (p : Bool) : (s.leaveInterrupt p).mem = s.mem := rfl
@[simp] theorem State.leaveInterrupt_reservation (s : State) (p : Bool) : (s.leaveInterrupt p).reservation = s.reservation := rfl
@[simp] theorem State.leaveInterrupt_irqPending (s : State) (p : Bool) : (s.leaveInterrupt p).irqPending = s.irqPending := rfl
@[simp] theorem State.leaveInterrupt_nmiPending (s : State) (p : Bool) : (s.leaveInterrupt p).nmiPending = s.nmiPending := rfl
@[simp] theorem State.leaveInterrupt_waitTimer (s : State) (p : Bool) : (s.leaveInterrupt p).waitTimer = s.waitTimer := rfl
@[simp] theorem State.leaveInterrupt_waiting (s : State) (p : Bool) : (s.leaveInterrupt p).waiting = s.waiting := rfl
@[simp] theorem State.leaveInterrupt_savedN (s : State) (p : Bool) : (s.leaveInterrupt p).savedN = s.savedN := rfl
@[simp] theorem State.leaveInterrupt_savedE (s : State) (p : Bool) : (s.leaveInterrupt p).savedE = s.savedE := rfl
@[simp] theorem State.leaveInterrupt_savedI (s : State) (p : Bool) : (s.leaveInterrupt p).savedI = none := rfl
@[simp] theorem State.leaveInterrupt_lastWord (s : State) (p : Bool) : (s.leaveInterrupt p).lastWord = s.lastWord := rfl
@[simp] theorem State.leaveInterrupt_errorState (s : State) (p : Bool) : (s.leaveInterrupt p).errorState = s.errorState := rfl
@[simp] theorem State.leaveInterrupt_errorLine (s : State) (p : Bool) : (s.leaveInterrupt p).errorLine = s.errorLine := rfl
@[simp] theorem State.leaveInterrupt_ir (s : State) (p : Bool) : (s.leaveInterrupt p).ir = s.ir := rfl
@[simp] theorem State.leaveInterrupt_debugDue (s : State) (p : Bool) : (s.leaveInterrupt p).debugDue = s.debugDue := rfl
@[simp] theorem State.leaveInterrupt_refused (s : State) (p : Bool) : (s.leaveInterrupt p).refused = s.refused := rfl
@[simp] theorem State.leaveInterrupt_inputs (s : State) (p : Bool) : (s.leaveInterrupt p).inputs = s.inputs := rfl
@[simp] theorem State.leaveInterrupt_resets (s : State) (p : Bool) : (s.leaveInterrupt p).resets = s.resets := rfl

/-! ### setUnimplementedFlag: EST[1] set -/

@[simp] theorem State.setUnimplementedFlag_cfg (s : State) : (s.setUnimplementedFlag).cfg = s.cfg := rfl
@[simp] theorem State.setUnimplementedFlag_banks (s : State) : (s.setUnimplementedFlag).banks = s.banks := rfl
@[simp] theorem State.setUnimplementedFlag_dsp (s : State) : (s.setUnimplementedFlag).dsp = s.dsp := rfl
@[simp] theorem State.setUnimplementedFlag_fpr (s : State) : (s.setUnimplementedFlag).fpr = s.fpr := rfl
@[simp] theorem State.setUnimplementedFlag_ic (s : State) : (s.setUnimplementedFlag).ic = s.ic := rfl
@[simp] theorem State.setUnimplementedFlag_est (s : State) : (s.setUnimplementedFlag).est = s.est ||| 2#32 := rfl
@[simp] theorem State.setUnimplementedFlag_exi (s : State) : (s.setUnimplementedFlag).exi = s.exi := rfl
@[simp] theorem State.setUnimplementedFlag_exc (s : State) : (s.setUnimplementedFlag).exc = s.exc := rfl
@[simp] theorem State.setUnimplementedFlag_exm (s : State) : (s.setUnimplementedFlag).exm = s.exm := rfl
@[simp] theorem State.setUnimplementedFlag_etb (s : State) : (s.setUnimplementedFlag).etb = s.etb := rfl
@[simp] theorem State.setUnimplementedFlag_itb (s : State) : (s.setUnimplementedFlag).itb = s.itb := rfl
@[simp] theorem State.setUnimplementedFlag_cid (s : State) : (s.setUnimplementedFlag).cid = s.cid := rfl
@[simp] theorem State.setUnimplementedFlag_pid (s : State) : (s.setUnimplementedFlag).pid = s.pid := rfl
@[simp] theorem State.setUnimplementedFlag_scr (s : State) : (s.setUnimplementedFlag).scr = s.scr := rfl
@[simp] theorem State.setUnimplementedFlag_nrp (s : State) : (s.setUnimplementedFlag).nrp = s.nrp := rfl
@[simp] theorem State.setUnimplementedFlag_erp (s : State) : (s.setUnimplementedFlag).erp = s.erp := rfl
@[simp] theorem State.setUnimplementedFlag_ucr (s : State) : (s.setUnimplementedFlag).ucr = s.ucr := rfl
@[simp] theorem State.setUnimplementedFlag_crp (s : State) : (s.setUnimplementedFlag).crp = s.crp := rfl
@[simp] theorem State.setUnimplementedFlag_irp (s : State) : (s.setUnimplementedFlag).irp = s.irp := rfl
@[simp] theorem State.setUnimplementedFlag_dcr (s : State) : (s.setUnimplementedFlag).dcr = s.dcr := rfl
@[simp] theorem State.setUnimplementedFlag_spcExtra (s : State) : (s.setUnimplementedFlag).spcExtra = s.spcExtra := rfl
@[simp] theorem State.setUnimplementedFlag_mem (s : State) : (s.setUnimplementedFlag).mem = s.mem := rfl
@[simp] theorem State.setUnimplementedFlag_reservation (s : State) : (s.setUnimplementedFlag).reservation = s.reservation := rfl
@[simp] theorem State.setUnimplementedFlag_irqPending (s : State) : (s.setUnimplementedFlag).irqPending = s.irqPending := rfl
@[simp] theorem State.setUnimplementedFlag_nmiPending (s : State) : (s.setUnimplementedFlag).nmiPending = s.nmiPending := rfl
@[simp] theorem State.setUnimplementedFlag_waitTimer (s : State) : (s.setUnimplementedFlag).waitTimer = s.waitTimer := rfl
@[simp] theorem State.setUnimplementedFlag_waiting (s : State) : (s.setUnimplementedFlag).waiting = s.waiting := rfl
@[simp] theorem State.setUnimplementedFlag_savedN (s : State) : (s.setUnimplementedFlag).savedN = s.savedN := rfl
@[simp] theorem State.setUnimplementedFlag_savedE (s : State) : (s.setUnimplementedFlag).savedE = s.savedE := rfl
@[simp] theorem State.setUnimplementedFlag_savedI (s : State) : (s.setUnimplementedFlag).savedI = s.savedI := rfl
@[simp] theorem State.setUnimplementedFlag_lastWord (s : State) : (s.setUnimplementedFlag).lastWord = s.lastWord := rfl
@[simp] theorem State.setUnimplementedFlag_errorState (s : State) : (s.setUnimplementedFlag).errorState = s.errorState := rfl
@[simp] theorem State.setUnimplementedFlag_errorLine (s : State) : (s.setUnimplementedFlag).errorLine = s.errorLine := rfl
@[simp] theorem State.setUnimplementedFlag_ir (s : State) : (s.setUnimplementedFlag).ir = s.ir := rfl
@[simp] theorem State.setUnimplementedFlag_debugDue (s : State) : (s.setUnimplementedFlag).debugDue = s.debugDue := rfl
@[simp] theorem State.setUnimplementedFlag_refused (s : State) : (s.setUnimplementedFlag).refused = s.refused := rfl
@[simp] theorem State.setUnimplementedFlag_inputs (s : State) : (s.setUnimplementedFlag).inputs = s.inputs := rfl
@[simp] theorem State.setUnimplementedFlag_resets (s : State) : (s.setUnimplementedFlag).resets = s.resets := rfl

/-! ### mark: exceptions marked -/

@[simp] theorem State.mark_cfg (s : State) (es : List Exc) : (s.mark es).cfg = s.cfg := by cases es <;> rfl
@[simp] theorem State.mark_banks (s : State) (es : List Exc) : (s.mark es).banks = s.banks := by cases es <;> rfl
@[simp] theorem State.mark_dsp (s : State) (es : List Exc) : (s.mark es).dsp = s.dsp := by cases es <;> rfl
@[simp] theorem State.mark_fpr (s : State) (es : List Exc) : (s.mark es).fpr = s.fpr := by cases es <;> rfl
@[simp] theorem State.mark_ic (s : State) (es : List Exc) : (s.mark es).ic = s.ic := by cases es <;> rfl
@[simp] theorem State.mark_est (s : State) (es : List Exc) : (s.mark es).est = s.est := by cases es <;> rfl
@[simp] theorem State.mark_exi (s : State) (es : List Exc) : (s.mark es).exi = (if es.isEmpty then s.exi else s.ir) := by cases es <;> rfl
@[simp] theorem State.mark_exc (s : State) (es : List Exc) : (s.mark es).exc = markBits s.exc es := by cases es <;> rfl
@[simp] theorem State.mark_exm (s : State) (es : List Exc) : (s.mark es).exm = s.exm := by cases es <;> rfl
@[simp] theorem State.mark_etb (s : State) (es : List Exc) : (s.mark es).etb = s.etb := by cases es <;> rfl
@[simp] theorem State.mark_itb (s : State) (es : List Exc) : (s.mark es).itb = s.itb := by cases es <;> rfl
@[simp] theorem State.mark_cid (s : State) (es : List Exc) : (s.mark es).cid = s.cid := by cases es <;> rfl
@[simp] theorem State.mark_pid (s : State) (es : List Exc) : (s.mark es).pid = s.pid := by cases es <;> rfl
@[simp] theorem State.mark_scr (s : State) (es : List Exc) : (s.mark es).scr = s.scr := by cases es <;> rfl
@[simp] theorem State.mark_nrp (s : State) (es : List Exc) : (s.mark es).nrp = s.nrp := by cases es <;> rfl
@[simp] theorem State.mark_erp (s : State) (es : List Exc) : (s.mark es).erp = s.erp := by cases es <;> rfl
@[simp] theorem State.mark_ucr (s : State) (es : List Exc) : (s.mark es).ucr = s.ucr := by cases es <;> rfl
@[simp] theorem State.mark_crp (s : State) (es : List Exc) : (s.mark es).crp = s.crp := by cases es <;> rfl
@[simp] theorem State.mark_irp (s : State) (es : List Exc) : (s.mark es).irp = s.irp := by cases es <;> rfl
@[simp] theorem State.mark_dcr (s : State) (es : List Exc) : (s.mark es).dcr = s.dcr := by cases es <;> rfl
@[simp] theorem State.mark_spcExtra (s : State) (es : List Exc) : (s.mark es).spcExtra = s.spcExtra := by cases es <;> rfl
@[simp] theorem State.mark_mem (s : State) (es : List Exc) : (s.mark es).mem = s.mem := by cases es <;> rfl
@[simp] theorem State.mark_reservation (s : State) (es : List Exc) : (s.mark es).reservation = s.reservation := by cases es <;> rfl
@[simp] theorem State.mark_irqPending (s : State) (es : List Exc) : (s.mark es).irqPending = s.irqPending := by cases es <;> rfl
@[simp] theorem State.mark_nmiPending (s : State) (es : List Exc) : (s.mark es).nmiPending = s.nmiPending := by cases es <;> rfl
@[simp] theorem State.mark_waitTimer (s : State) (es : List Exc) : (s.mark es).waitTimer = s.waitTimer := by cases es <;> rfl
@[simp] theorem State.mark_waiting (s : State) (es : List Exc) : (s.mark es).waiting = s.waiting := by cases es <;> rfl
@[simp] theorem State.mark_savedN (s : State) (es : List Exc) : (s.mark es).savedN = s.savedN := by cases es <;> rfl
@[simp] theorem State.mark_savedE (s : State) (es : List Exc) : (s.mark es).savedE = s.savedE := by cases es <;> rfl
@[simp] theorem State.mark_savedI (s : State) (es : List Exc) : (s.mark es).savedI = s.savedI := by cases es <;> rfl
@[simp] theorem State.mark_lastWord (s : State) (es : List Exc) : (s.mark es).lastWord = s.lastWord := by cases es <;> rfl
@[simp] theorem State.mark_errorState (s : State) (es : List Exc) : (s.mark es).errorState = s.errorState := by cases es <;> rfl
@[simp] theorem State.mark_errorLine (s : State) (es : List Exc) : (s.mark es).errorLine = s.errorLine := by cases es <;> rfl
@[simp] theorem State.mark_ir (s : State) (es : List Exc) : (s.mark es).ir = s.ir := by cases es <;> rfl
@[simp] theorem State.mark_debugDue (s : State) (es : List Exc) : (s.mark es).debugDue = s.debugDue := by cases es <;> rfl
@[simp] theorem State.mark_refused (s : State) (es : List Exc) : (s.mark es).refused = s.refused := by cases es <;> rfl
@[simp] theorem State.mark_inputs (s : State) (es : List Exc) : (s.mark es).inputs = s.inputs := by cases es <;> rfl
@[simp] theorem State.mark_resets (s : State) (es : List Exc) : (s.mark es).resets = s.resets := by cases es <;> rfl

/-! ### retire: an instruction completed -/

@[simp] theorem State.retire_cfg (s : State) (start : State) : (s.retire start).cfg = s.cfg := by unfold State.retire; split <;> simp_all
@[simp] theorem State.retire_banks (s : State) (start : State) : (s.retire start).banks = s.banks := by unfold State.retire; split <;> simp_all
@[simp] theorem State.retire_dsp (s : State) (start : State) : (s.retire start).dsp = s.dsp := by unfold State.retire; split <;> simp_all
@[simp] theorem State.retire_fpr (s : State) (start : State) : (s.retire start).fpr = s.fpr := by unfold State.retire; split <;> simp_all
@[simp] theorem State.retire_ic (s : State) (start : State) : (s.retire start).ic = s.ic := by unfold State.retire; split <;> simp_all
@[simp] theorem State.retire_est (s : State) (start : State) : (s.retire start).est = s.est := by unfold State.retire; split <;> simp_all
@[simp] theorem State.retire_exi (s : State) (start : State) : (s.retire start).exi = (if s.debugMode then s.ir else s.exi) := by unfold State.retire; split <;> simp_all
@[simp] theorem State.retire_exc (s : State) (start : State) : (s.retire start).exc = (if s.debugMode then s.exc ||| Exc.debugMode.bit else s.exc) := by unfold State.retire; split <;> simp_all
@[simp] theorem State.retire_exm (s : State) (start : State) : (s.retire start).exm = s.exm := by unfold State.retire; split <;> simp_all
@[simp] theorem State.retire_etb (s : State) (start : State) : (s.retire start).etb = s.etb := by unfold State.retire; split <;> simp_all
@[simp] theorem State.retire_itb (s : State) (start : State) : (s.retire start).itb = s.itb := by unfold State.retire; split <;> simp_all
@[simp] theorem State.retire_cid (s : State) (start : State) : (s.retire start).cid = s.cid := by unfold State.retire; split <;> simp_all
@[simp] theorem State.retire_pid (s : State) (start : State) : (s.retire start).pid = s.pid := by unfold State.retire; split <;> simp_all
@[simp] theorem State.retire_scr (s : State) (start : State) : (s.retire start).scr = s.scr := by unfold State.retire; split <;> simp_all
@[simp] theorem State.retire_nrp (s : State) (start : State) : (s.retire start).nrp = s.nrp := by unfold State.retire; split <;> simp_all
@[simp] theorem State.retire_erp (s : State) (start : State) : (s.retire start).erp = s.erp := by unfold State.retire; split <;> simp_all
@[simp] theorem State.retire_ucr (s : State) (start : State) : (s.retire start).ucr = s.ucr := by unfold State.retire; split <;> simp_all
@[simp] theorem State.retire_crp (s : State) (start : State) : (s.retire start).crp = s.crp := by unfold State.retire; split <;> simp_all
@[simp] theorem State.retire_irp (s : State) (start : State) : (s.retire start).irp = s.irp := by unfold State.retire; split <;> simp_all
@[simp] theorem State.retire_dcr (s : State) (start : State) : (s.retire start).dcr = s.dcr := by unfold State.retire; split <;> simp_all
@[simp] theorem State.retire_spcExtra (s : State) (start : State) : (s.retire start).spcExtra = s.spcExtra := by unfold State.retire; split <;> simp_all
@[simp] theorem State.retire_mem (s : State) (start : State) : (s.retire start).mem = s.mem := by unfold State.retire; split <;> simp_all
@[simp] theorem State.retire_reservation (s : State) (start : State) : (s.retire start).reservation = s.reservation := by unfold State.retire; split <;> simp_all
@[simp] theorem State.retire_irqPending (s : State) (start : State) : (s.retire start).irqPending = s.irqPending := by unfold State.retire; split <;> simp_all
@[simp] theorem State.retire_nmiPending (s : State) (start : State) : (s.retire start).nmiPending = s.nmiPending := by unfold State.retire; split <;> simp_all
@[simp] theorem State.retire_waitTimer (s : State) (start : State) : (s.retire start).waitTimer = s.waitTimer := by unfold State.retire; split <;> simp_all
@[simp] theorem State.retire_waiting (s : State) (start : State) : (s.retire start).waiting = s.waiting := by unfold State.retire; split <;> simp_all
@[simp] theorem State.retire_savedN (s : State) (start : State) : (s.retire start).savedN = s.savedN := by unfold State.retire; split <;> simp_all
@[simp] theorem State.retire_savedE (s : State) (start : State) : (s.retire start).savedE = s.savedE := by unfold State.retire; split <;> simp_all
@[simp] theorem State.retire_savedI (s : State) (start : State) : (s.retire start).savedI = s.savedI := by unfold State.retire; split <;> simp_all
@[simp] theorem State.retire_lastWord (s : State) (start : State) : (s.retire start).lastWord = s.ir := by unfold State.retire; split <;> simp_all
@[simp] theorem State.retire_errorState (s : State) (start : State) : (s.retire start).errorState = s.errorState := by unfold State.retire; split <;> simp_all
@[simp] theorem State.retire_errorLine (s : State) (start : State) : (s.retire start).errorLine = s.errorLine := by unfold State.retire; split <;> simp_all
@[simp] theorem State.retire_ir (s : State) (start : State) : (s.retire start).ir = s.ir := by unfold State.retire; split <;> simp_all
@[simp] theorem State.retire_debugDue (s : State) (start : State) : (s.retire start).debugDue = (if s.debugMode then start.potent .debugMode else s.debugDue) := by unfold State.retire; split <;> simp_all
@[simp] theorem State.retire_refused (s : State) (start : State) : (s.retire start).refused = s.refused := by unfold State.retire; split <;> simp_all
@[simp] theorem State.retire_inputs (s : State) (start : State) : (s.retire start).inputs = s.inputs := by unfold State.retire; split <;> simp_all
@[simp] theorem State.retire_resets (s : State) (start : State) : (s.retire start).resets = s.resets := by unfold State.retire; split <;> simp_all

/-! ### abort: a potent instruction-raised exception -/

@[simp] theorem State.abort_cfg (s : State) (es : List Exc) : (s.abort es).cfg = s.cfg := by cases es <;> rfl
@[simp] theorem State.abort_banks (s : State) (es : List Exc) : (s.abort es).banks = s.banks := by cases es <;> rfl
@[simp] theorem State.abort_dsp (s : State) (es : List Exc) : (s.abort es).dsp = s.dsp := by cases es <;> rfl
@[simp] theorem State.abort_fpr (s : State) (es : List Exc) : (s.abort es).fpr = s.fpr := by cases es <;> rfl
@[simp] theorem State.abort_ic (s : State) (es : List Exc) : (s.abort es).ic = wrapIc s.cfg s.etb := by cases es <;> rfl
@[simp] theorem State.abort_est (s : State) (es : List Exc) : (s.abort es).est = s.est := by cases es <;> rfl
@[simp] theorem State.abort_exi (s : State) (es : List Exc) : (s.abort es).exi = (if es.isEmpty then s.exi else s.ir) := by cases es <;> rfl
@[simp] theorem State.abort_exc (s : State) (es : List Exc) : (s.abort es).exc = markBits s.exc es := by cases es <;> rfl
@[simp] theorem State.abort_exm (s : State) (es : List Exc) : (s.abort es).exm = s.exm := by cases es <;> rfl
@[simp] theorem State.abort_etb (s : State) (es : List Exc) : (s.abort es).etb = s.etb := by cases es <;> rfl
@[simp] theorem State.abort_itb (s : State) (es : List Exc) : (s.abort es).itb = s.itb := by cases es <;> rfl
@[simp] theorem State.abort_cid (s : State) (es : List Exc) : (s.abort es).cid = s.cid := by cases es <;> rfl
@[simp] theorem State.abort_pid (s : State) (es : List Exc) : (s.abort es).pid = s.pid := by cases es <;> rfl
@[simp] theorem State.abort_scr (s : State) (es : List Exc) : (s.abort es).scr = withSavedBits s.scr ⟨true, false, false⟩ := by cases es <;> rfl
@[simp] theorem State.abort_nrp (s : State) (es : List Exc) : (s.abort es).nrp = s.nrp := by cases es <;> rfl
@[simp] theorem State.abort_erp (s : State) (es : List Exc) : (s.abort es).erp = s.icNext := by cases es <;> rfl
@[simp] theorem State.abort_ucr (s : State) (es : List Exc) : (s.abort es).ucr = s.ucr := by cases es <;> rfl
@[simp] theorem State.abort_crp (s : State) (es : List Exc) : (s.abort es).crp = s.crp := by cases es <;> rfl
@[simp] theorem State.abort_irp (s : State) (es : List Exc) : (s.abort es).irp = s.irp := by cases es <;> rfl
@[simp] theorem State.abort_dcr (s : State) (es : List Exc) : (s.abort es).dcr = s.dcr := by cases es <;> rfl
@[simp] theorem State.abort_spcExtra (s : State) (es : List Exc) : (s.abort es).spcExtra = s.spcExtra := by cases es <;> rfl
@[simp] theorem State.abort_mem (s : State) (es : List Exc) : (s.abort es).mem = s.mem := by cases es <;> rfl
@[simp] theorem State.abort_reservation (s : State) (es : List Exc) : (s.abort es).reservation = s.reservation := by cases es <;> rfl
@[simp] theorem State.abort_irqPending (s : State) (es : List Exc) : (s.abort es).irqPending = s.irqPending := by cases es <;> rfl
@[simp] theorem State.abort_nmiPending (s : State) (es : List Exc) : (s.abort es).nmiPending = s.nmiPending := by cases es <;> rfl
@[simp] theorem State.abort_waitTimer (s : State) (es : List Exc) : (s.abort es).waitTimer = s.waitTimer := by cases es <;> rfl
@[simp] theorem State.abort_waiting (s : State) (es : List Exc) : (s.abort es).waiting = s.waiting := by cases es <;> rfl
@[simp] theorem State.abort_savedN (s : State) (es : List Exc) : (s.abort es).savedN = s.savedN := by cases es <;> rfl
@[simp] theorem State.abort_savedE (s : State) (es : List Exc) : (s.abort es).savedE = some (savedBits s.scr) := by cases es <;> rfl
@[simp] theorem State.abort_savedI (s : State) (es : List Exc) : (s.abort es).savedI = s.savedI := by cases es <;> rfl
@[simp] theorem State.abort_lastWord (s : State) (es : List Exc) : (s.abort es).lastWord = s.lastWord := by cases es <;> rfl
@[simp] theorem State.abort_errorState (s : State) (es : List Exc) : (s.abort es).errorState = s.errorState := by cases es <;> rfl
@[simp] theorem State.abort_errorLine (s : State) (es : List Exc) : (s.abort es).errorLine = s.errorLine := by cases es <;> rfl
@[simp] theorem State.abort_ir (s : State) (es : List Exc) : (s.abort es).ir = s.ir := by cases es <;> rfl
@[simp] theorem State.abort_debugDue (s : State) (es : List Exc) : (s.abort es).debugDue = s.debugDue := by cases es <;> rfl
@[simp] theorem State.abort_refused (s : State) (es : List Exc) : (s.abort es).refused = s.refused := by cases es <;> rfl
@[simp] theorem State.abort_inputs (s : State) (es : List Exc) : (s.abort es).inputs = s.inputs := by cases es <;> rfl
@[simp] theorem State.abort_resets (s : State) (es : List Exc) : (s.abort es).resets = s.resets := by cases es <;> rfl

/-! ### writeFp: an FP result write -/

@[simp] theorem State.writeFp_cfg (s : State) (n : Nat) {w : Nat} (v : BitVec w) : (s.writeFp n v).cfg = s.cfg := by unfold State.writeFp; split <;> simp_all [State.withGpr]
@[simp] theorem State.writeFp_banks (s : State) (n : Nat) {w : Nat} (v : BitVec w) : (s.writeFp n v).banks = (if s.cfg.hasFpr then s.banks else s.banks.set s.bank (writeFile s.gpr s.cfg.gprWidth n v)) := by unfold State.writeFp; split <;> simp_all [State.withGpr]
@[simp] theorem State.writeFp_dsp (s : State) (n : Nat) {w : Nat} (v : BitVec w) : (s.writeFp n v).dsp = s.dsp := by unfold State.writeFp; split <;> simp_all [State.withGpr]
@[simp] theorem State.writeFp_fpr (s : State) (n : Nat) {w : Nat} (v : BitVec w) : (s.writeFp n v).fpr = (if s.cfg.hasFpr then writeFile s.fpr s.cfg.fprWidth n v else s.fpr) := by unfold State.writeFp; split <;> simp_all [State.withGpr]
@[simp] theorem State.writeFp_ic (s : State) (n : Nat) {w : Nat} (v : BitVec w) : (s.writeFp n v).ic = s.ic := by unfold State.writeFp; split <;> simp_all [State.withGpr]
@[simp] theorem State.writeFp_est (s : State) (n : Nat) {w : Nat} (v : BitVec w) : (s.writeFp n v).est = s.est := by unfold State.writeFp; split <;> simp_all [State.withGpr]
@[simp] theorem State.writeFp_exi (s : State) (n : Nat) {w : Nat} (v : BitVec w) : (s.writeFp n v).exi = s.exi := by unfold State.writeFp; split <;> simp_all [State.withGpr]
@[simp] theorem State.writeFp_exc (s : State) (n : Nat) {w : Nat} (v : BitVec w) : (s.writeFp n v).exc = s.exc := by unfold State.writeFp; split <;> simp_all [State.withGpr]
@[simp] theorem State.writeFp_exm (s : State) (n : Nat) {w : Nat} (v : BitVec w) : (s.writeFp n v).exm = s.exm := by unfold State.writeFp; split <;> simp_all [State.withGpr]
@[simp] theorem State.writeFp_etb (s : State) (n : Nat) {w : Nat} (v : BitVec w) : (s.writeFp n v).etb = s.etb := by unfold State.writeFp; split <;> simp_all [State.withGpr]
@[simp] theorem State.writeFp_itb (s : State) (n : Nat) {w : Nat} (v : BitVec w) : (s.writeFp n v).itb = s.itb := by unfold State.writeFp; split <;> simp_all [State.withGpr]
@[simp] theorem State.writeFp_cid (s : State) (n : Nat) {w : Nat} (v : BitVec w) : (s.writeFp n v).cid = s.cid := by unfold State.writeFp; split <;> simp_all [State.withGpr]
@[simp] theorem State.writeFp_pid (s : State) (n : Nat) {w : Nat} (v : BitVec w) : (s.writeFp n v).pid = s.pid := by unfold State.writeFp; split <;> simp_all [State.withGpr]
@[simp] theorem State.writeFp_scr (s : State) (n : Nat) {w : Nat} (v : BitVec w) : (s.writeFp n v).scr = s.scr := by unfold State.writeFp; split <;> simp_all [State.withGpr]
@[simp] theorem State.writeFp_nrp (s : State) (n : Nat) {w : Nat} (v : BitVec w) : (s.writeFp n v).nrp = s.nrp := by unfold State.writeFp; split <;> simp_all [State.withGpr]
@[simp] theorem State.writeFp_erp (s : State) (n : Nat) {w : Nat} (v : BitVec w) : (s.writeFp n v).erp = s.erp := by unfold State.writeFp; split <;> simp_all [State.withGpr]
@[simp] theorem State.writeFp_ucr (s : State) (n : Nat) {w : Nat} (v : BitVec w) : (s.writeFp n v).ucr = s.ucr := by unfold State.writeFp; split <;> simp_all [State.withGpr]
@[simp] theorem State.writeFp_crp (s : State) (n : Nat) {w : Nat} (v : BitVec w) : (s.writeFp n v).crp = s.crp := by unfold State.writeFp; split <;> simp_all [State.withGpr]
@[simp] theorem State.writeFp_irp (s : State) (n : Nat) {w : Nat} (v : BitVec w) : (s.writeFp n v).irp = s.irp := by unfold State.writeFp; split <;> simp_all [State.withGpr]
@[simp] theorem State.writeFp_dcr (s : State) (n : Nat) {w : Nat} (v : BitVec w) : (s.writeFp n v).dcr = s.dcr := by unfold State.writeFp; split <;> simp_all [State.withGpr]
@[simp] theorem State.writeFp_spcExtra (s : State) (n : Nat) {w : Nat} (v : BitVec w) : (s.writeFp n v).spcExtra = s.spcExtra := by unfold State.writeFp; split <;> simp_all [State.withGpr]
@[simp] theorem State.writeFp_mem (s : State) (n : Nat) {w : Nat} (v : BitVec w) : (s.writeFp n v).mem = s.mem := by unfold State.writeFp; split <;> simp_all [State.withGpr]
@[simp] theorem State.writeFp_reservation (s : State) (n : Nat) {w : Nat} (v : BitVec w) : (s.writeFp n v).reservation = s.reservation := by unfold State.writeFp; split <;> simp_all [State.withGpr]
@[simp] theorem State.writeFp_irqPending (s : State) (n : Nat) {w : Nat} (v : BitVec w) : (s.writeFp n v).irqPending = s.irqPending := by unfold State.writeFp; split <;> simp_all [State.withGpr]
@[simp] theorem State.writeFp_nmiPending (s : State) (n : Nat) {w : Nat} (v : BitVec w) : (s.writeFp n v).nmiPending = s.nmiPending := by unfold State.writeFp; split <;> simp_all [State.withGpr]
@[simp] theorem State.writeFp_waitTimer (s : State) (n : Nat) {w : Nat} (v : BitVec w) : (s.writeFp n v).waitTimer = s.waitTimer := by unfold State.writeFp; split <;> simp_all [State.withGpr]
@[simp] theorem State.writeFp_waiting (s : State) (n : Nat) {w : Nat} (v : BitVec w) : (s.writeFp n v).waiting = s.waiting := by unfold State.writeFp; split <;> simp_all [State.withGpr]
@[simp] theorem State.writeFp_savedN (s : State) (n : Nat) {w : Nat} (v : BitVec w) : (s.writeFp n v).savedN = s.savedN := by unfold State.writeFp; split <;> simp_all [State.withGpr]
@[simp] theorem State.writeFp_savedE (s : State) (n : Nat) {w : Nat} (v : BitVec w) : (s.writeFp n v).savedE = s.savedE := by unfold State.writeFp; split <;> simp_all [State.withGpr]
@[simp] theorem State.writeFp_savedI (s : State) (n : Nat) {w : Nat} (v : BitVec w) : (s.writeFp n v).savedI = s.savedI := by unfold State.writeFp; split <;> simp_all [State.withGpr]
@[simp] theorem State.writeFp_lastWord (s : State) (n : Nat) {w : Nat} (v : BitVec w) : (s.writeFp n v).lastWord = s.lastWord := by unfold State.writeFp; split <;> simp_all [State.withGpr]
@[simp] theorem State.writeFp_errorState (s : State) (n : Nat) {w : Nat} (v : BitVec w) : (s.writeFp n v).errorState = s.errorState := by unfold State.writeFp; split <;> simp_all [State.withGpr]
@[simp] theorem State.writeFp_errorLine (s : State) (n : Nat) {w : Nat} (v : BitVec w) : (s.writeFp n v).errorLine = s.errorLine := by unfold State.writeFp; split <;> simp_all [State.withGpr]
@[simp] theorem State.writeFp_ir (s : State) (n : Nat) {w : Nat} (v : BitVec w) : (s.writeFp n v).ir = s.ir := by unfold State.writeFp; split <;> simp_all [State.withGpr]
@[simp] theorem State.writeFp_debugDue (s : State) (n : Nat) {w : Nat} (v : BitVec w) : (s.writeFp n v).debugDue = s.debugDue := by unfold State.writeFp; split <;> simp_all [State.withGpr]
@[simp] theorem State.writeFp_refused (s : State) (n : Nat) {w : Nat} (v : BitVec w) : (s.writeFp n v).refused = s.refused := by unfold State.writeFp; split <;> simp_all [State.withGpr]
@[simp] theorem State.writeFp_inputs (s : State) (n : Nat) {w : Nat} (v : BitVec w) : (s.writeFp n v).inputs = s.inputs := by unfold State.writeFp; split <;> simp_all [State.withGpr]
@[simp] theorem State.writeFp_resets (s : State) (n : Nat) {w : Nat} (v : BitVec w) : (s.writeFp n v).resets = s.resets := by unfold State.writeFp; split <;> simp_all [State.withGpr]

/-! ### systemReset: a system reset -/

@[simp] theorem State.systemReset_cfg (s : State) : (s.systemReset).cfg = s.cfg := rfl
@[simp] theorem State.systemReset_banks (s : State) : (s.systemReset).banks = ((List.range s.banks.length).map fun b => fileAfterReset s.resets (b + 2) s.cfg.gprWidth (s.banks.getD b [])) := rfl
@[simp] theorem State.systemReset_dsp (s : State) : (s.systemReset).dsp = fileAfterReset s.resets 0 s.cfg.dspMode.width s.dsp := rfl
@[simp] theorem State.systemReset_fpr (s : State) : (s.systemReset).fpr = fileAfterReset s.resets 1 s.cfg.fprWidth s.fpr := rfl
@[simp] theorem State.systemReset_ic (s : State) : (s.systemReset).ic = 0 := rfl
@[simp] theorem State.systemReset_est (s : State) : (s.systemReset).est = 0 := rfl
@[simp] theorem State.systemReset_exi (s : State) : (s.systemReset).exi = 0 := rfl
@[simp] theorem State.systemReset_exc (s : State) : (s.systemReset).exc = 0 := rfl
@[simp] theorem State.systemReset_exm (s : State) : (s.systemReset).exm = 0 := rfl
@[simp] theorem State.systemReset_etb (s : State) : (s.systemReset).etb = 0 := rfl
@[simp] theorem State.systemReset_itb (s : State) : (s.systemReset).itb = 0 := rfl
@[simp] theorem State.systemReset_cid (s : State) : (s.systemReset).cid = 0 := rfl
@[simp] theorem State.systemReset_pid (s : State) : (s.systemReset).pid = 0 := rfl
@[simp] theorem State.systemReset_scr (s : State) : (s.systemReset).scr = 1 := rfl
@[simp] theorem State.systemReset_nrp (s : State) : (s.systemReset).nrp = 0 := rfl
@[simp] theorem State.systemReset_erp (s : State) : (s.systemReset).erp = 0 := rfl
@[simp] theorem State.systemReset_ucr (s : State) : (s.systemReset).ucr = 0 := rfl
@[simp] theorem State.systemReset_crp (s : State) : (s.systemReset).crp = 0 := rfl
@[simp] theorem State.systemReset_irp (s : State) : (s.systemReset).irp = 0 := rfl
@[simp] theorem State.systemReset_dcr (s : State) : (s.systemReset).dcr = 0 := rfl
@[simp] theorem State.systemReset_spcExtra (s : State) : (s.systemReset).spcExtra = s.spcExtra.map fun _ => 0 := rfl
@[simp] theorem State.systemReset_mem (s : State) : (s.systemReset).mem = s.mem := rfl
@[simp] theorem State.systemReset_reservation (s : State) : (s.systemReset).reservation = none := rfl
@[simp] theorem State.systemReset_irqPending (s : State) : (s.systemReset).irqPending = false := rfl
@[simp] theorem State.systemReset_nmiPending (s : State) : (s.systemReset).nmiPending = false := rfl
@[simp] theorem State.systemReset_waitTimer (s : State) : (s.systemReset).waitTimer = 0 := rfl
@[simp] theorem State.systemReset_waiting (s : State) : (s.systemReset).waiting = false := rfl
@[simp] theorem State.systemReset_savedN (s : State) : (s.systemReset).savedN = none := rfl
@[simp] theorem State.systemReset_savedE (s : State) : (s.systemReset).savedE = none := rfl
@[simp] theorem State.systemReset_savedI (s : State) : (s.systemReset).savedI = none := rfl
@[simp] theorem State.systemReset_lastWord (s : State) : (s.systemReset).lastWord = 0 := rfl
@[simp] theorem State.systemReset_errorState (s : State) : (s.systemReset).errorState = false := rfl
@[simp] theorem State.systemReset_errorLine (s : State) : (s.systemReset).errorLine = false := rfl
@[simp] theorem State.systemReset_ir (s : State) : (s.systemReset).ir = 0 := rfl
@[simp] theorem State.systemReset_debugDue (s : State) : (s.systemReset).debugDue = false := rfl
@[simp] theorem State.systemReset_refused (s : State) : (s.systemReset).refused = s.refused := rfl
@[simp] theorem State.systemReset_inputs (s : State) : (s.systemReset).inputs = s.inputs := rfl
@[simp] theorem State.systemReset_resets (s : State) : (s.systemReset).resets = s.resets + 1 := rfl

end Sys2Proof.Machine
end

