-- ==== Sys2Proof/Laws/Flow.lean ====
section
/-! SUPPORT. What the shared operations of exceptions and program flow can do, said once each: potency, marking, entry,
return, checks, completion (`spec/60_exceptions.md`). -/
namespace Sys2Proof.Machine

/-! ### Bits -/

/-- The bit of an exception stands at its number. -/
theorem Exc.getLsbD_bit (e : Exc) (n : Nat) : e.bit.getLsbD n = (e.number == n) := by
  rw [Bool.eq_iff_iff]
  have h64 : e.number < 64 := by cases e <;> decide
  simp only [Exc.bit, BitVec.getLsbD_shiftLeft, BitVec.getLsbD_one, Bool.and_eq_true, decide_eq_true_eq,
    Bool.not_eq_true', decide_eq_false_iff_not, beq_iff_eq]
  omega

/-- Marking joins the exceptions' bits (R42). -/
theorem markBits_getLsbD (exc : DWord) (es : List Exc) (n : Nat) :
    (markBits exc es).getLsbD n = (exc.getLsbD n || es.any fun e => e.number == n) := by
  induction es generalizing exc with
  | nil => simp [markBits]
  | cons e es ih => simp [markBits, ih, BitVec.getLsbD_or, Exc.getLsbD_bit, Bool.or_assoc]

/-- Marking joins exactly the bits of its list. -/
theorem excMarked_markBits (exc : DWord) (es : List Exc) : ExcMarked exc (markBits exc es) es :=
  fun n => markBits_getLsbD exc es n

/-- Bits 0, 2 and 3 are the saved ones, the others are kept (R422, R427). -/
theorem withSavedBits_getLsbD (scr : Word) (b : SavedBits) (n : Nat) :
    (withSavedBits scr b).getLsbD n
      = (if n = 0 then b.systemMode else if n = 2 then b.exceptions else if n = 3 then b.interrupts
         else scr.getLsbD n) := by
  obtain ⟨x, y, z⟩ := b
  have mask : ∀ k, k < 32 → (0xFFFFFFF2#32).getLsbD k = !(k == 0 || k == 2 || k == 3) := by decide
  by_cases h : n < 32
  · simp only [withSavedBits, BitVec.getLsbD_or, BitVec.getLsbD_and, mask n h, BitVec.getLsbD_shiftLeft,
      BitVec.getLsbD_setWidth, BitVec.getLsbD_ofBool]
    by_cases h0 : n = 0
    · subst h0; simp
    by_cases h2 : n = 2
    · subst h2; simp
    by_cases h3 : n = 3
    · subst h3; simp
    by_cases h1 : n = 1
    · subst h1; simp
    have b0 : (n == 0) = false := by simpa using h0
    have b2 : (n == 2) = false := by simpa using h2
    have b3 : (n == 3) = false := by simpa using h3
    have a2 : n - 2 ≠ 0 := by omega
    have a3 : n - 3 ≠ 0 := by omega
    simp [h0, h2, h3, a2, a3, b0, b2, b3]
  · have h0 : n ≠ 0 := by omega
    have h2 : n ≠ 2 := by omega
    have h3 : n ≠ 3 := by omega
    rw [if_neg h0, if_neg h2, if_neg h3, BitVec.getLsbD_of_ge _ _ (by omega), BitVec.getLsbD_of_ge _ _ (by omega)]

/-- Restoring the bits SCR had gives SCR. -/
@[simp] theorem withSavedBits_savedBits (scr : Word) (b : SavedBits) :
    withSavedBits (withSavedBits scr b) (savedBits scr) = scr := by
  apply BitVec.eq_of_getLsbD_eq
  intro n _
  rw [withSavedBits_getLsbD, withSavedBits_getLsbD]
  simp only [savedBits]
  split
  · simp_all
  · split
    · simp_all
    · split <;> simp_all

/-- An entry sets SYSTEM MODE and clears the two enable bits. -/
theorem scrEntered_withSavedBits (scr : Word) : ScrEntered scr (withSavedBits scr ⟨true, false, false⟩) := by
  intro n
  rw [withSavedBits_getLsbD]
  split
  · rfl
  · split
    · simp_all
    · split <;> simp_all

/-- The low 16 bits of EST are the flags, the others are kept (R205, R233, R291). -/
theorem withFlags_getLsbD (est : Word) (flags : BitVec 16) (n : Nat) :
    (withFlags est flags).getLsbD n = if n < 16 then flags.getLsbD n else est.getLsbD n := by
  simp only [withFlags, BitVec.getLsbD_append, BitVec.getLsbD_extractLsb']
  split
  · rfl
  · rename_i h
    by_cases h32 : n < 32
    · rw [decide_eq_true (by omega), Bool.true_and]
      congr 1
      omega
    · rw [decide_eq_false (by omega), Bool.false_and, BitVec.getLsbD_of_ge _ _ (by omega)]

/-- Each flag at its place (R34). -/
theorem EstFlags.getLsbD_bits (f : EstFlags) (n : Nat) :
    f.bits.getLsbD n
      = (match n with
         | 0 => f.invalid | 1 => f.unimplemented | 2 => f.divisionByZero | 3 => f.overflow | 4 => f.underflow
         | 5 => f.equal | 6 => f.greater | 7 => f.less | 8 => f.inexact | 9 => f.unordered | 10 => f.sign
         | 11 => f.zero | 12 => f.denormalized | 13 => f.infinity | 14 => f.signalingNan | 15 => f.nan
         | _ => false) := by
  rcases Nat.lt_or_ge n 16 with h | h
  · simp only [EstFlags.bits, BitVec.getLsbD_ofBoolListLE]
    interval_cases n <;> rfl
  · rw [BitVec.getLsbD_of_ge _ _ h]
    split <;> first | omega | rfl

/-! ### Potency -/

/-- potent_exc(n) (R401). -/
theorem State.potent_iff (s : State) (e : Exc) :
    s.potent e = true ↔ s.scr.getLsbD 2 = true ∧ s.exm.getLsbD e.number = false := by
  simp [State.potent, State.exceptionsEnabled]

/-! ### Checks, traps and skips -/

/-- A guarded instruction either raises the first check that holds or does its work. -/
theorem State.guarded_cases (s : State) (arithmetic : Bool) (checks : List (Bool × Exc)) (work : State) :
    (∃ e, firstHit checks = some e ∧ s.guarded arithmetic checks work = s.raiseCheck e arithmetic)
      ∨ (firstHit checks = none ∧ s.guarded arithmetic checks work = work) := by
  unfold State.guarded
  cases h : firstHit checks with
  | none => exact .inr ⟨rfl, rfl⟩
  | some e => exact .inl ⟨e, rfl, rfl⟩

/-- A guarded instruction none of whose checks holds does its work. -/
theorem State.guarded_of_none (s : State) (arithmetic : Bool) (checks : List (Bool × Exc)) (work : State)
    (h : firstHit checks = none) : s.guarded arithmetic checks work = work := by
  rw [State.guarded, h]

/-- A guarded instruction raises its first check that holds. -/
theorem State.guarded_of_some (s : State) (arithmetic : Bool) (checks : List (Bool × Exc)) (work : State) (e : Exc)
    (h : firstHit checks = some e) : s.guarded arithmetic checks work = s.raiseCheck e arithmetic := by
  rw [State.guarded, h]

/-- No check holds. -/
theorem firstHit_none (checks : List (Bool × Exc)) : firstHit checks = none ↔ ∀ c ∈ checks, c.1 = false := by
  induction checks with
  | nil => simp [firstHit]
  | cons c t ih =>
    obtain ⟨b, e⟩ := c
    cases b <;> simp [firstHit, ih]

/-- A property of the state a guarded instruction leaves: it holds of a trap, of a skip and of the work. -/
theorem State.guarded_rule {Q : State → Prop} (s : State) (arithmetic : Bool) (checks : List (Bool × Exc))
    (work : State) (hc : ∀ e, Q (s.raiseCheck e arithmetic)) (hw : firstHit checks = none → Q work) :
    Q (s.guarded arithmetic checks work) := by
  rcases s.guarded_cases arithmetic checks work with ⟨e, -, h⟩ | ⟨h0, h⟩
  · rw [h]; exact hc e
  · rw [h]; exact hw h0

/-- A property of the state a failed check leaves: it holds of a trap and of a skip. -/
theorem State.raiseCheck_rule {Q : State → Prop} (s : State) (e : Exc) (arithmetic : Bool)
    (ha : s.potent e = true → Q (s.abort [e])) (hs : s.potent e = false → Q (s.skip e arithmetic)) :
    Q (s.raiseCheck e arithmetic) := by
  unfold State.raiseCheck
  split
  · exact ha ‹_›
  · exact hs (by simp_all)

/-- A property of the state an arithmetic/logic instruction leaves: it holds of a trap and of the completion. -/
theorem State.complete_rule {Q : State → Prop} (s : State) (raised : List Exc) (flags : BitVec 16) (written : State)
    (ha : raised.any s.potent = true → Q (s.abort raised))
    (hw : raised.any s.potent = false →
      Q (({ written with est := withFlags written.est flags }.mark raised).advance.retire s)) :
    Q (s.complete raised flags written) := by
  unfold State.complete
  split
  · exact ha ‹_›
  · exact hw (by simp_all)

/-- A potent exception traps (R406, R422). -/
theorem State.abort_trapped (s : State) (raised : List Exc) (h : raised ≠ []) : Trapped s (s.abort raised) raised := by
  refine ⟨?_, ?_, ?_⟩
  · cases raised with
    | nil => exact absurd rfl h
    | cons e es => rfl
  · rw [State.abort_exc]; exact excMarked_markBits _ _
  · rw [State.abort_scr]; exact scrEntered_withSavedBits _

/-- What completing leaves, from the state its writes leave (R64, R412). `u` is the state before the exceptions are
marked. -/
theorem State.retire_completed (s u : State) (raised : List Exc) (hir : u.ir = s.ir) (hexc : u.exc = s.exc)
    (hexi : u.exi = s.exi) (hdue : u.debugDue = s.debugDue) :
    Completed s ((u.mark raised).retire s) raised := by
  have hd : ((u.mark raised).retire s).debugMode = u.debugMode := by simp [State.debugMode]
  have hm : (u.mark raised).debugMode = u.debugMode := by simp [State.debugMode]
  refine ⟨by simp [hir], ?_, ?_, ?_⟩
  · intro n
    rw [hd, State.retire_exc, hm, State.mark_exc, hexc]
    cases u.debugMode <;> simp [markBits_getLsbD, Exc.getLsbD_bit, Bool.or_assoc]
  · rw [hd, State.retire_exi, hm, State.mark_exi, State.mark_ir, hir, hexi]
    cases u.debugMode <;> simp
  · rw [hd, State.retire_debugDue, hm, State.mark_debugDue, hdue]
    simp [State.potent, Exc.number]

/-- An impotent exception of the skipped kind (R408). -/
theorem State.skip_skipped (s : State) (e : Exc) (arithmetic : Bool) :
    Skipped s (s.skip e arithmetic) e (arithmetic && e == .unimplementedInstruction) := by
  refine ⟨?_, ?_, ?_⟩
  · unfold State.skip State.retire
    cases (arithmetic && e == Exc.unimplementedInstruction) <;> simp only [↓reduceIte, Bool.false_eq_true] <;>
      split <;> rfl
  · unfold State.skip
    cases (arithmetic && e == Exc.unimplementedInstruction)
    · exact State.retire_completed s { s with ic := s.icNext } [e] rfl rfl rfl rfl
    · exact State.retire_completed s { s.setUnimplementedFlag with ic := s.icNext } [e] rfl rfl rfl rfl
  · intro n
    unfold State.skip
    cases (arithmetic && e == Exc.unimplementedInstruction)
    · simp
    · simp only [↓reduceIte, State.retire_est, State.advance_est, State.mark_est, State.setUnimplementedFlag_est,
        BitVec.getLsbD_or, Bool.true_and]
      congr 1
      rw [Bool.eq_iff_iff, beq_iff_eq]
      by_cases h : n < 32
      · interval_cases n <;> simp
      · rw [BitVec.getLsbD_of_ge _ _ (by omega)]
        simp
        omega

/-- A check that fails refuses the instruction (R406, R408). -/
theorem State.raiseCheck_refused (s : State) (e : Exc) (arithmetic : Bool) :
    Refused s (s.raiseCheck e arithmetic) e (arithmetic && e == .unimplementedInstruction) := by
  unfold Refused State.raiseCheck
  split
  · exact State.abort_trapped s [e] (by simp)
  · exact State.skip_skipped s e arithmetic

/-! ### The boundary -/

/-- What a boundary can do (R432). -/
theorem State.boundary_cases (s : State) :
    s.boundary = s ∨ s.boundary = s.enterNmi ∨ s.boundary = { s with debugDue := false }.enterException s.ic
      ∨ s.boundary = s.enterException s.ic ∨ s.boundary = s.enterInterrupt := by
  unfold State.boundary
  split
  · exact .inl rfl
  split
  · exact .inr (.inl rfl)
  split
  · exact .inr (.inr (.inl rfl))
  split
  · exact .inr (.inr (.inr (.inl rfl)))
  split
  · exact .inr (.inr (.inr (.inr rfl)))
  · exact .inl rfl

/-- A property of the state a boundary leaves. -/
theorem State.boundary_rule {Q : State → Prop} (s : State) (h0 : Q s) (hn : Q s.enterNmi)
    (hd : Q ({ s with debugDue := false }.enterException s.ic)) (he : Q (s.enterException s.ic))
    (hi : Q s.enterInterrupt) : Q s.boundary := by
  rcases s.boundary_cases with h | h | h | h | h <;> rw [h] <;> assumption

/-- A boundary changes neither memory nor registers. -/
@[simp] theorem State.boundary_mem (s : State) : s.boundary.mem = s.mem :=
  State.boundary_rule (Q := fun t => t.mem = s.mem) s rfl rfl rfl rfl rfl

@[simp] theorem State.boundary_banks (s : State) : s.boundary.banks = s.banks :=
  State.boundary_rule (Q := fun t => t.banks = s.banks) s rfl rfl rfl rfl rfl

@[simp] theorem State.boundary_cfg (s : State) : s.boundary.cfg = s.cfg :=
  State.boundary_rule (Q := fun t => t.cfg = s.cfg) s rfl rfl rfl rfl rfl

@[simp] theorem State.boundary_dsp (s : State) : s.boundary.dsp = s.dsp :=
  State.boundary_rule (Q := fun t => t.dsp = s.dsp) s rfl rfl rfl rfl rfl

@[simp] theorem State.boundary_fpr (s : State) : s.boundary.fpr = s.fpr :=
  State.boundary_rule (Q := fun t => t.fpr = s.fpr) s rfl rfl rfl rfl rfl

@[simp] theorem State.boundary_spcExtra (s : State) : s.boundary.spcExtra = s.spcExtra :=
  State.boundary_rule (Q := fun t => t.spcExtra = s.spcExtra) s rfl rfl rfl rfl rfl

@[simp] theorem State.boundary_exm (s : State) : s.boundary.exm = s.exm :=
  State.boundary_rule (Q := fun t => t.exm = s.exm) s rfl rfl rfl rfl rfl

@[simp] theorem State.boundary_reservation (s : State) : s.boundary.reservation = s.reservation :=
  State.boundary_rule (Q := fun t => t.reservation = s.reservation) s rfl rfl rfl rfl rfl

@[simp] theorem State.boundary_waitTimer (s : State) : s.boundary.waitTimer = s.waitTimer :=
  State.boundary_rule (Q := fun t => t.waitTimer = s.waitTimer) s rfl rfl rfl rfl rfl

@[simp] theorem State.boundary_waiting (s : State) : s.boundary.waiting = s.waiting :=
  State.boundary_rule (Q := fun t => t.waiting = s.waiting) s rfl rfl rfl rfl rfl

@[simp] theorem State.boundary_errorState (s : State) : s.boundary.errorState = s.errorState :=
  State.boundary_rule (Q := fun t => t.errorState = s.errorState) s rfl rfl rfl rfl rfl

@[simp] theorem State.boundary_errorLine (s : State) : s.boundary.errorLine = s.errorLine :=
  State.boundary_rule (Q := fun t => t.errorLine = s.errorLine) s rfl rfl rfl rfl rfl

@[simp] theorem State.boundary_refused (s : State) : s.boundary.refused = s.refused :=
  State.boundary_rule (Q := fun t => t.refused = s.refused) s rfl rfl rfl rfl rfl

@[simp] theorem State.boundary_inputs (s : State) : s.boundary.inputs = s.inputs :=
  State.boundary_rule (Q := fun t => t.inputs = s.inputs) s rfl rfl rfl rfl rfl

@[simp] theorem State.boundary_lastWord (s : State) : s.boundary.lastWord = s.lastWord :=
  State.boundary_rule (Q := fun t => t.lastWord = s.lastWord) s rfl rfl rfl rfl rfl

/-! ### Words an implementation must have (R11) -/

/-- Two sets of words that do not meet share no word. -/
theorem not_mem_of_not_wordsMeet (p q : Word × Word) (h : wordsMeet p q = false) (w : Word) (hq : w &&& q.1 = q.2) :
    wordIn w p = false := by
  rw [wordIn, beq_eq_false_iff_ne]
  intro hp
  rw [wordsMeet, beq_eq_false_iff_ne] at h
  apply h
  rw [← hp, ← hq]
  ext i
  simp only [BitVec.getElem_and, BitVec.getElem_xor]
  cases w[i] <;> cases p.1[i] <;> cases q.1[i] <;> simp

/-- A legal implementation leaves out no word that R11 (a) and (b) require. -/
theorem State.lacks_of_required (s : State) (h : s.cfg.legal = true) (q : Word × Word) (hq : q ∈ s.cfg.requiredWords)
    (hw : s.ir &&& q.1 = q.2) : s.lacks = false := by
  rw [Config.legal, Bool.and_eq_true, Config.regular, Bool.and_eq_true, List.all_eq_true] at h
  rw [State.lacks, Config.leavesOut, List.any_eq_false]
  intro p hp
  have hm : wordsMeet p q = false := by simpa using List.all_eq_true.1 (h.2.1 q hq) p hp
  simpa using not_mem_of_not_wordsMeet p q hm s.ir hw

/-- MMODE stands within its mask. -/
theorem modeBits_within (m : Nat) (h : m ≤ 7) : modeBits m &&& ~~~modeMask = 0#32 := by
  interval_cases m <;> decide

/-- A word with another MMODE. -/
def withMode (w : Word) (m : Nat) : Word := (w &&& ~~~modeMask) ||| modeBits m

/-- A legal implementation that leaves out a word of a modal operation at a mode up to the natural one leaves it out at
each of these modes. -/
theorem Config.leavesOut_withMode (c : Config) (h : c.legal = true) (q : Word × Word) (hq : q ∈ modalOperations)
    (m n : Nat) (hm : m ≤ c.naturalMode.code) (hn : n ≤ c.naturalMode.code) (w : Word)
    (hw : wordIn w (atMode q m) = true) (hl : c.leavesOut w = true) : c.leavesOut (withMode w n) = true := by
  rw [Config.legal, Bool.and_eq_true, Config.regular, Bool.and_eq_true] at h
  obtain ⟨p, hp, hwp⟩ := List.any_eq_true.1 hl
  have h1 := List.all_eq_true.1 (List.all_eq_true.1 (List.all_eq_true.1 h.2.2 q hq) m
    (List.mem_range.2 (by omega))) p hp
  have meet : wordsMeet p (atMode q m) = true := by
    by_contra hx
    have := not_mem_of_not_wordsMeet p (atMode q m) (by simpa using hx) w (by simpa [wordIn] using hw)
    rw [hwp] at this
    cases this
  rw [meet, Bool.not_true, Bool.false_or] at h1
  obtain ⟨r, hr, hc⟩ := List.any_eq_true.1 (List.all_eq_true.1 h1 n (List.mem_range.2 (by omega)))
  refine List.any_eq_true.2 ⟨r, hr, ?_⟩
  simp only [wordsCover, wordIn, Bool.and_eq_true, beq_iff_eq, sharedAt, atMode, withMode] at hc hwp hw ⊢
  rw [← hc.2, ← hwp]
  ext i hi
  have h7 : m ≤ 7 := le_trans hm (by cases c.naturalMode <;> decide)
  have e1 := congrArg (fun v : Word => v[i]) hc.1
  have e2 := congrArg (fun v : Word => v[i]) hw
  have e3 := congrArg (fun v : Word => v[i]) (modeBits_within m h7)
  simp only [BitVec.getElem_and, BitVec.getElem_or, BitVec.getElem_not, BitVec.getElem_zero] at e1 e2 e3 ⊢
  revert e1 e2 e3
  generalize w[i] = bw, p.1[i] = bp, q.1[i] = bq, q.2[i] = bv, r.1[i] = br, modeMask[i] = bm, (modeBits m)[i] = b1,
    (modeBits n)[i] = b2
  revert bw bp bq bv br bm b1 b2
  decide

/-! ### Accesses wider than a file (D39) -/

/-- An access does not fit exactly when the file is there and has fewer registers than the access needs. -/
theorem accessFits_eq_false (f : List RegBits) (vw w : Nat) :
    accessFits f vw w = false ↔ f ≠ [] ∧ f.length < partsNeeded vw w := by
  simp [accessFits]

/-- A wider access needs no fewer registers. -/
theorem partsNeeded_mono (vw : Nat) {w w' : Nat} (h : w ≤ w') : partsNeeded vw w ≤ partsNeeded vw w' :=
  Nat.div_le_div_right (by omega)

end Sys2Proof.Machine
end

