-- ==== Sys2Proof/Laws/Cycle.lean ====
section
/-! SUPPORT. What one step is: the instruction or the pause's cycle, the events, the boundary; and the rule by which a
property that each of the three keeps is kept by every step. -/
namespace Sys2Proof.Machine

/-- What every event keeps, the arrival of a step's events keeps. -/
theorem State.arrive_rule {Q : State → Prop} (hr : ∀ s e, Q s → Q (s.receive e))
    (hi : ∀ s later, Q s → Q { s with inputs := later }) (s : State) (h : Q s) : Q s.arrive := by
  have all : ∀ (es : List Event) (u : State), Q u → Q (u.receiveAll es) := by
    intro es
    induction es with
    | nil => exact fun u hu => hu
    | cons e es ih => exact fun u hu => ih _ (hr u e hu)
  unfold State.arrive
  split
  · exact h
  · exact all _ _ (hi _ _ h)

/-- With no event to come, nothing arrives. -/
@[simp] theorem State.arrive_of_nil (s : State) (h : s.inputs = []) : s.arrive = s := by
  unfold State.arrive
  rw [h]

/-- One event that is to come acts on the state at the end of the step. -/
theorem State.arrive_one (s : State) (e : Event) (later : List (List Event)) (h : s.inputs = [e] :: later) :
    s.arrive = ({ s with inputs := later } : State).receive e := by
  unfold State.arrive
  rw [h]
  rfl

/-- A step that leads on ends with the events and the boundary, after what `EventsMeet` names. -/
theorem step_of_eventsMeet (s u : State) (h : EventsMeet s u)
    (he : s.errorState = false ∨ s.arrive.errorState = false) : step s = .next u.arrive.boundary := by
  rcases h with ⟨h1, rfl⟩ | ⟨h1, h2, rfl⟩ | ⟨h1, h2, h⟩
  · have h3 : u.arrive.errorState = false := he.resolve_left (by simp [h1])
    simp only [step, cycle, h1, h3, State.settle, if_true, Bool.false_eq_true, if_false]
  · simp only [step, cycle, h1, h2, State.settle, if_true, Bool.false_eq_true, if_false]
  · simp only [step, cycle, h1, h2, h, thenSettle, State.settle, Bool.false_eq_true, if_false]

/-- Every step that answers a next state is one of those. -/
theorem step_cases (s t : State) (h : step s = .next t) : ∃ u, EventsMeet s u ∧ t = u.arrive.boundary := by
  unfold step cycle at h
  split at h
  · rename_i he
    split at h
    · cases h
    · cases h
      exact ⟨s, .inl ⟨he, rfl⟩, rfl⟩
  · rename_i he
    split at h
    · rename_i hw
      cases h
      exact ⟨_, .inr (.inl ⟨by simpa using he, hw, rfl⟩), rfl⟩
    · rename_i hw
      cases hf : fetchAndRun s.ready with
      | next u =>
        rw [hf] at h
        cases h
        exact ⟨u, .inr (.inr ⟨by simpa using he, by simpa using hw, hf⟩), rfl⟩
      | fault r => rw [hf] at h; cases h
      | refused r => rw [hf] at h; cases h

/-- What the state an instruction or a pause leaves has, the events keep, and a boundary turns into the invariant. -/
theorem step_rule {Q M : State → Prop} (hm : ∀ s u, Q s → EventsMeet s u → M u)
    (hr : ∀ s e, M s → M (s.receive e)) (hi : ∀ s later, M s → M { s with inputs := later })
    (hb : ∀ s, M s → Q s.boundary) (s t : State) (h : Q s) (hs : step s = .next t) : Q t := by
  obtain ⟨u, hu, rfl⟩ := step_cases s t hs
  exact hb _ (State.arrive_rule hr hi u (hm s u h hu))

end Sys2Proof.Machine
end

