-- ==== Sys2Proof/Laws/PerInstr.lean ====
section
/-! SUPPORT. Facts about every instruction as syntax, one lemma per constructor. The family Group: the two top bits of
an instruction's word tell its group, 1x data transfer (11 with a GPR or special register destination, 10 a store), 00
arithmetic/logic, 01 control (R111). -/
namespace Sys2Proof

/-- Bits 31:30 of the instruction's word (R111). -/
def Instr.topBits : Instr → Nat
  | .loadDisp _ _ _ _ => 3
  | .loadReg _ _ _ => 3
  | .loadRegPostInc _ _ _ => 3
  | .loadRegPostDec _ _ _ => 3
  | .loadRegPreInc _ _ _ => 3
  | .loadRegPreDec _ _ _ => 3
  | .loadIdx _ _ _ _ => 3
  | .loadIdxPostInc _ _ _ _ => 3
  | .loadIdxPostDec _ _ _ _ => 3
  | .loadIdxPreInc _ _ _ _ => 3
  | .loadIdxPreDec _ _ _ _ => 3
  | .storeDisp _ _ _ _ => 2
  | .storeReg _ _ _ => 2
  | .storeRegPostInc _ _ _ => 2
  | .storeRegPostDec _ _ _ => 2
  | .storeRegPreInc _ _ _ => 2
  | .storeRegPreDec _ _ _ => 2
  | .storeIdx _ _ _ _ => 2
  | .storeIdxPostInc _ _ _ _ => 2
  | .storeIdxPostDec _ _ _ _ => 2
  | .storeIdxPreInc _ _ _ _ => 2
  | .storeIdxPreDec _ _ _ _ => 2
  | .loadLockedDisp _ _ _ _ => 3
  | .loadLockedReg _ _ _ => 3
  | .loadLockedRegPostInc _ _ _ => 3
  | .loadLockedRegPostDec _ _ _ => 3
  | .loadLockedRegPreInc _ _ _ => 3
  | .loadLockedRegPreDec _ _ _ => 3
  | .loadLockedIdx _ _ _ _ => 3
  | .loadLockedIdxPostInc _ _ _ _ => 3
  | .loadLockedIdxPostDec _ _ _ _ => 3
  | .loadLockedIdxPreInc _ _ _ _ => 3
  | .loadLockedIdxPreDec _ _ _ _ => 3
  | .storeCondDisp _ _ _ _ => 2
  | .storeCondReg _ _ _ => 2
  | .storeCondRegPostInc _ _ _ => 2
  | .storeCondRegPostDec _ _ _ => 2
  | .storeCondRegPreInc _ _ _ => 2
  | .storeCondRegPreDec _ _ _ => 2
  | .storeCondIdx _ _ _ _ => 2
  | .storeCondIdxPostInc _ _ _ _ => 2
  | .storeCondIdxPostDec _ _ _ _ => 2
  | .storeCondIdxPreInc _ _ _ _ => 2
  | .storeCondIdxPreDec _ _ _ _ => 2
  | .movRegReg _ _ _ => 3
  | .movRegSpc _ _ _ => 3
  | .movSpcReg _ _ _ => 3
  | .movRegDsp _ _ _ => 3
  | .movDspReg _ _ _ => 3
  | .movRegFpr _ _ _ => 3
  | .movFprReg _ _ _ => 3
  | .loadImm _ _ _ _ => 3
  | .addReg _ _ _ _ => 0
  | .addImm _ _ _ _ => 0
  | .subReg _ _ _ _ => 0
  | .subImm _ _ _ _ => 0
  | .mulReg _ _ _ _ => 0
  | .mulImm _ _ _ _ => 0
  | .divReg _ _ _ _ => 0
  | .divImm _ _ _ _ => 0
  | .slReg _ _ _ _ => 0
  | .slImm _ _ _ _ => 0
  | .srReg _ _ _ _ => 0
  | .srImm _ _ _ _ => 0
  | .andReg _ _ _ _ => 0
  | .andImm _ _ _ _ => 0
  | .nandReg _ _ _ _ => 0
  | .nandImm _ _ _ _ => 0
  | .orReg _ _ _ _ => 0
  | .orImm _ _ _ _ => 0
  | .xorReg _ _ _ _ => 0
  | .xorImm _ _ _ _ => 0
  | .rlReg _ _ _ => 0
  | .rlImm _ _ _ => 0
  | .rrReg _ _ _ => 0
  | .rrImm _ _ _ => 0
  | .sbReg _ _ _ => 0
  | .sbImm _ _ _ => 0
  | .rbReg _ _ _ => 0
  | .rbImm _ _ _ => 0
  | .tbReg _ _ _ => 0
  | .tbImm _ _ _ => 0
  | .rvbReg _ _ _ => 0
  | .rvbImm _ _ _ => 0
  | .madReg _ _ _ _ _ => 0
  | .madImm _ _ _ _ _ => 0
  | .msuReg _ _ _ _ _ => 0
  | .msuImm _ _ _ _ _ => 0
  | .fadd _ _ => 0
  | .fsub _ _ => 0
  | .fmul _ _ => 0
  | .fdiv _ _ => 0
  | .frem _ _ => 0
  | .fcmp _ _ => 0
  | .fsqr _ => 0
  | .fabs _ => 0
  | .fneg _ => 0
  | .frnd _ => 0
  | .ff2i _ _ _ => 0
  | .fi2f _ _ _ => 0
  | .fextH _ => 0
  | .fextW _ => 0
  | .fextD _ => 0
  | .fextQ _ => 0
  | .fext1 _ => 0
  | .fsqzH _ => 0
  | .fsqzW _ => 0
  | .fsqzD _ => 0
  | .fsqzQ _ => 0
  | .fsqz1 _ => 0
  | .fmad _ _ _ => 0
  | .fmsu _ _ _ => 0
  | .jmpReg _ _ _ => 1
  | .jmpOff _ _ _ => 1
  | .bzReg _ _ _ _ _ => 1
  | .bzOff _ _ _ _ _ => 1
  | .bnzReg _ _ _ _ _ => 1
  | .bnzOff _ _ _ _ _ => 1
  | .bmReg _ _ _ _ _ => 1
  | .bmOff _ _ _ _ _ => 1
  | .bmzReg _ _ _ _ _ => 1
  | .bmzOff _ _ _ _ _ => 1
  | .bnmReg _ _ _ _ _ => 1
  | .bnmOff _ _ _ _ _ => 1
  | .bnmoReg _ _ _ _ _ => 1
  | .bnmoOff _ _ _ _ _ => 1
  | .blReg _ _ _ _ _ => 1
  | .blOff _ _ _ _ _ => 1
  | .blzReg _ _ _ _ _ => 1
  | .blzOff _ _ _ _ _ => 1
  | .bnlReg _ _ _ _ _ => 1
  | .bnlOff _ _ _ _ _ => 1
  | .bnloReg _ _ _ _ _ => 1
  | .bnloOff _ _ _ _ _ => 1
  | .boReg _ _ _ _ _ => 1
  | .boOff _ _ _ _ _ => 1
  | .bnoReg _ _ _ _ _ => 1
  | .bnoOff _ _ _ _ _ => 1
  | .ret _ => 1
  | .reti _ => 1
  | .rete _ => 1
  | .retn _ => 1
  | .waitReg _ => 1
  | .waitImm _ => 1

theorem MMode.code_lt (m : MMode) : m.code < 8 := by cases m <;> decide

/-- The two top bits of a word built from fields that fit. -/
theorem field_opWord (opcode d low : Nat) (h1 : opcode < 256) (h2 : d < 64) (h3 : low < 2 ^ 18) :
    field (opWord opcode d low) 30 2 = opcode / 64 := by
  simp only [field, opWord, BitVec.toNat_ofNat]
  omega

namespace Laws.Group

/-- The group of a well-formed instruction stands in the two top bits of its word. -/
def Statement (i : Instr) : Prop := i.wellFormed = true → field (encode i) 30 2 = i.topBits

theorem loadDisp (m : MMode) (d : Nat) (b : Nat) (off : BitVec 12) : Statement (.loadDisp m d b off) := by
  intro h
  change (specifierOk d && specifierOk b) = true at h
  simp only [specifierOk, Bool.and_eq_true, decide_eq_true_eq] at h
  have h0 := MMode.code_lt m
  have h1 := off.isLt
  refine Eq.trans (field_opWord _ _ _ ?_ ?_ ?_) (?_ : _ = 3) <;> omega

theorem loadReg (m : MMode) (d : Nat) (x : Nat) : Statement (.loadReg m d x) := by
  intro h
  change (specifierOk d && specifierOk x) = true at h
  simp only [specifierOk, Bool.and_eq_true, decide_eq_true_eq] at h
  have h0 := MMode.code_lt m
  refine Eq.trans (field_opWord _ _ _ ?_ ?_ ?_) (?_ : _ = 3) <;> omega

theorem loadRegPostInc (m : MMode) (d : Nat) (x : Nat) : Statement (.loadRegPostInc m d x) := by
  intro h
  change (specifierOk d && specifierOk x) = true at h
  simp only [specifierOk, Bool.and_eq_true, decide_eq_true_eq] at h
  have h0 := MMode.code_lt m
  refine Eq.trans (field_opWord _ _ _ ?_ ?_ ?_) (?_ : _ = 3) <;> omega

theorem loadRegPostDec (m : MMode) (d : Nat) (x : Nat) : Statement (.loadRegPostDec m d x) := by
  intro h
  change (specifierOk d && specifierOk x) = true at h
  simp only [specifierOk, Bool.and_eq_true, decide_eq_true_eq] at h
  have h0 := MMode.code_lt m
  refine Eq.trans (field_opWord _ _ _ ?_ ?_ ?_) (?_ : _ = 3) <;> omega

theorem loadRegPreInc (m : MMode) (d : Nat) (x : Nat) : Statement (.loadRegPreInc m d x) := by
  intro h
  change (specifierOk d && specifierOk x) = true at h
  simp only [specifierOk, Bool.and_eq_true, decide_eq_true_eq] at h
  have h0 := MMode.code_lt m
  refine Eq.trans (field_opWord _ _ _ ?_ ?_ ?_) (?_ : _ = 3) <;> omega

theorem loadRegPreDec (m : MMode) (d : Nat) (x : Nat) : Statement (.loadRegPreDec m d x) := by
  intro h
  change (specifierOk d && specifierOk x) = true at h
  simp only [specifierOk, Bool.and_eq_true, decide_eq_true_eq] at h
  have h0 := MMode.code_lt m
  refine Eq.trans (field_opWord _ _ _ ?_ ?_ ?_) (?_ : _ = 3) <;> omega

theorem loadIdx (m : MMode) (d : Nat) (b : Nat) (x : Nat) : Statement (.loadIdx m d b x) := by
  intro h
  change (specifierOk d && specifierOk b && specifierOk x) = true at h
  simp only [specifierOk, Bool.and_eq_true, decide_eq_true_eq] at h
  have h0 := MMode.code_lt m
  refine Eq.trans (field_opWord _ _ _ ?_ ?_ ?_) (?_ : _ = 3) <;> omega

theorem loadIdxPostInc (m : MMode) (d : Nat) (b : Nat) (x : Nat) : Statement (.loadIdxPostInc m d b x) := by
  intro h
  change (specifierOk d && specifierOk b && specifierOk x) = true at h
  simp only [specifierOk, Bool.and_eq_true, decide_eq_true_eq] at h
  have h0 := MMode.code_lt m
  refine Eq.trans (field_opWord _ _ _ ?_ ?_ ?_) (?_ : _ = 3) <;> omega

theorem loadIdxPostDec (m : MMode) (d : Nat) (b : Nat) (x : Nat) : Statement (.loadIdxPostDec m d b x) := by
  intro h
  change (specifierOk d && specifierOk b && specifierOk x) = true at h
  simp only [specifierOk, Bool.and_eq_true, decide_eq_true_eq] at h
  have h0 := MMode.code_lt m
  refine Eq.trans (field_opWord _ _ _ ?_ ?_ ?_) (?_ : _ = 3) <;> omega

theorem loadIdxPreInc (m : MMode) (d : Nat) (b : Nat) (x : Nat) : Statement (.loadIdxPreInc m d b x) := by
  intro h
  change (specifierOk d && specifierOk b && specifierOk x) = true at h
  simp only [specifierOk, Bool.and_eq_true, decide_eq_true_eq] at h
  have h0 := MMode.code_lt m
  refine Eq.trans (field_opWord _ _ _ ?_ ?_ ?_) (?_ : _ = 3) <;> omega

theorem loadIdxPreDec (m : MMode) (d : Nat) (b : Nat) (x : Nat) : Statement (.loadIdxPreDec m d b x) := by
  intro h
  change (specifierOk d && specifierOk b && specifierOk x) = true at h
  simp only [specifierOk, Bool.and_eq_true, decide_eq_true_eq] at h
  have h0 := MMode.code_lt m
  refine Eq.trans (field_opWord _ _ _ ?_ ?_ ?_) (?_ : _ = 3) <;> omega

theorem storeDisp (m : MMode) (d : Nat) (b : Nat) (off : BitVec 12) : Statement (.storeDisp m d b off) := by
  intro h
  change (specifierOk d && specifierOk b) = true at h
  simp only [specifierOk, Bool.and_eq_true, decide_eq_true_eq] at h
  have h0 := MMode.code_lt m
  have h1 := off.isLt
  refine Eq.trans (field_opWord _ _ _ ?_ ?_ ?_) (?_ : _ = 2) <;> omega

theorem storeReg (m : MMode) (d : Nat) (x : Nat) : Statement (.storeReg m d x) := by
  intro h
  change (specifierOk d && specifierOk x) = true at h
  simp only [specifierOk, Bool.and_eq_true, decide_eq_true_eq] at h
  have h0 := MMode.code_lt m
  refine Eq.trans (field_opWord _ _ _ ?_ ?_ ?_) (?_ : _ = 2) <;> omega

theorem storeRegPostInc (m : MMode) (d : Nat) (x : Nat) : Statement (.storeRegPostInc m d x) := by
  intro h
  change (specifierOk d && specifierOk x) = true at h
  simp only [specifierOk, Bool.and_eq_true, decide_eq_true_eq] at h
  have h0 := MMode.code_lt m
  refine Eq.trans (field_opWord _ _ _ ?_ ?_ ?_) (?_ : _ = 2) <;> omega

theorem storeRegPostDec (m : MMode) (d : Nat) (x : Nat) : Statement (.storeRegPostDec m d x) := by
  intro h
  change (specifierOk d && specifierOk x) = true at h
  simp only [specifierOk, Bool.and_eq_true, decide_eq_true_eq] at h
  have h0 := MMode.code_lt m
  refine Eq.trans (field_opWord _ _ _ ?_ ?_ ?_) (?_ : _ = 2) <;> omega

theorem storeRegPreInc (m : MMode) (d : Nat) (x : Nat) : Statement (.storeRegPreInc m d x) := by
  intro h
  change (specifierOk d && specifierOk x) = true at h
  simp only [specifierOk, Bool.and_eq_true, decide_eq_true_eq] at h
  have h0 := MMode.code_lt m
  refine Eq.trans (field_opWord _ _ _ ?_ ?_ ?_) (?_ : _ = 2) <;> omega

theorem storeRegPreDec (m : MMode) (d : Nat) (x : Nat) : Statement (.storeRegPreDec m d x) := by
  intro h
  change (specifierOk d && specifierOk x) = true at h
  simp only [specifierOk, Bool.and_eq_true, decide_eq_true_eq] at h
  have h0 := MMode.code_lt m
  refine Eq.trans (field_opWord _ _ _ ?_ ?_ ?_) (?_ : _ = 2) <;> omega

theorem storeIdx (m : MMode) (d : Nat) (b : Nat) (x : Nat) : Statement (.storeIdx m d b x) := by
  intro h
  change (specifierOk d && specifierOk b && specifierOk x) = true at h
  simp only [specifierOk, Bool.and_eq_true, decide_eq_true_eq] at h
  have h0 := MMode.code_lt m
  refine Eq.trans (field_opWord _ _ _ ?_ ?_ ?_) (?_ : _ = 2) <;> omega

theorem storeIdxPostInc (m : MMode) (d : Nat) (b : Nat) (x : Nat) : Statement (.storeIdxPostInc m d b x) := by
  intro h
  change (specifierOk d && specifierOk b && specifierOk x) = true at h
  simp only [specifierOk, Bool.and_eq_true, decide_eq_true_eq] at h
  have h0 := MMode.code_lt m
  refine Eq.trans (field_opWord _ _ _ ?_ ?_ ?_) (?_ : _ = 2) <;> omega

theorem storeIdxPostDec (m : MMode) (d : Nat) (b : Nat) (x : Nat) : Statement (.storeIdxPostDec m d b x) := by
  intro h
  change (specifierOk d && specifierOk b && specifierOk x) = true at h
  simp only [specifierOk, Bool.and_eq_true, decide_eq_true_eq] at h
  have h0 := MMode.code_lt m
  refine Eq.trans (field_opWord _ _ _ ?_ ?_ ?_) (?_ : _ = 2) <;> omega

theorem storeIdxPreInc (m : MMode) (d : Nat) (b : Nat) (x : Nat) : Statement (.storeIdxPreInc m d b x) := by
  intro h
  change (specifierOk d && specifierOk b && specifierOk x) = true at h
  simp only [specifierOk, Bool.and_eq_true, decide_eq_true_eq] at h
  have h0 := MMode.code_lt m
  refine Eq.trans (field_opWord _ _ _ ?_ ?_ ?_) (?_ : _ = 2) <;> omega

theorem storeIdxPreDec (m : MMode) (d : Nat) (b : Nat) (x : Nat) : Statement (.storeIdxPreDec m d b x) := by
  intro h
  change (specifierOk d && specifierOk b && specifierOk x) = true at h
  simp only [specifierOk, Bool.and_eq_true, decide_eq_true_eq] at h
  have h0 := MMode.code_lt m
  refine Eq.trans (field_opWord _ _ _ ?_ ?_ ?_) (?_ : _ = 2) <;> omega

theorem loadLockedDisp (m : MMode) (d : Nat) (b : Nat) (off : BitVec 12) : Statement (.loadLockedDisp m d b off) := by
  intro h
  change (specifierOk d && specifierOk b) = true at h
  simp only [specifierOk, Bool.and_eq_true, decide_eq_true_eq] at h
  have h0 := MMode.code_lt m
  have h1 := off.isLt
  refine Eq.trans (field_opWord _ _ _ ?_ ?_ ?_) (?_ : _ = 3) <;> omega

theorem loadLockedReg (m : MMode) (d : Nat) (x : Nat) : Statement (.loadLockedReg m d x) := by
  intro h
  change (specifierOk d && specifierOk x) = true at h
  simp only [specifierOk, Bool.and_eq_true, decide_eq_true_eq] at h
  have h0 := MMode.code_lt m
  refine Eq.trans (field_opWord _ _ _ ?_ ?_ ?_) (?_ : _ = 3) <;> omega

theorem loadLockedRegPostInc (m : MMode) (d : Nat) (x : Nat) : Statement (.loadLockedRegPostInc m d x) := by
  intro h
  change (specifierOk d && specifierOk x) = true at h
  simp only [specifierOk, Bool.and_eq_true, decide_eq_true_eq] at h
  have h0 := MMode.code_lt m
  refine Eq.trans (field_opWord _ _ _ ?_ ?_ ?_) (?_ : _ = 3) <;> omega

theorem loadLockedRegPostDec (m : MMode) (d : Nat) (x : Nat) : Statement (.loadLockedRegPostDec m d x) := by
  intro h
  change (specifierOk d && specifierOk x) = true at h
  simp only [specifierOk, Bool.and_eq_true, decide_eq_true_eq] at h
  have h0 := MMode.code_lt m
  refine Eq.trans (field_opWord _ _ _ ?_ ?_ ?_) (?_ : _ = 3) <;> omega

theorem loadLockedRegPreInc (m : MMode) (d : Nat) (x : Nat) : Statement (.loadLockedRegPreInc m d x) := by
  intro h
  change (specifierOk d && specifierOk x) = true at h
  simp only [specifierOk, Bool.and_eq_true, decide_eq_true_eq] at h
  have h0 := MMode.code_lt m
  refine Eq.trans (field_opWord _ _ _ ?_ ?_ ?_) (?_ : _ = 3) <;> omega

theorem loadLockedRegPreDec (m : MMode) (d : Nat) (x : Nat) : Statement (.loadLockedRegPreDec m d x) := by
  intro h
  change (specifierOk d && specifierOk x) = true at h
  simp only [specifierOk, Bool.and_eq_true, decide_eq_true_eq] at h
  have h0 := MMode.code_lt m
  refine Eq.trans (field_opWord _ _ _ ?_ ?_ ?_) (?_ : _ = 3) <;> omega

theorem loadLockedIdx (m : MMode) (d : Nat) (b : Nat) (x : Nat) : Statement (.loadLockedIdx m d b x) := by
  intro h
  change (specifierOk d && specifierOk b && specifierOk x) = true at h
  simp only [specifierOk, Bool.and_eq_true, decide_eq_true_eq] at h
  have h0 := MMode.code_lt m
  refine Eq.trans (field_opWord _ _ _ ?_ ?_ ?_) (?_ : _ = 3) <;> omega

theorem loadLockedIdxPostInc (m : MMode) (d : Nat) (b : Nat) (x : Nat) : Statement (.loadLockedIdxPostInc m d b x) := by
  intro h
  change (specifierOk d && specifierOk b && specifierOk x) = true at h
  simp only [specifierOk, Bool.and_eq_true, decide_eq_true_eq] at h
  have h0 := MMode.code_lt m
  refine Eq.trans (field_opWord _ _ _ ?_ ?_ ?_) (?_ : _ = 3) <;> omega

theorem loadLockedIdxPostDec (m : MMode) (d : Nat) (b : Nat) (x : Nat) : Statement (.loadLockedIdxPostDec m d b x) := by
  intro h
  change (specifierOk d && specifierOk b && specifierOk x) = true at h
  simp only [specifierOk, Bool.and_eq_true, decide_eq_true_eq] at h
  have h0 := MMode.code_lt m
  refine Eq.trans (field_opWord _ _ _ ?_ ?_ ?_) (?_ : _ = 3) <;> omega

theorem loadLockedIdxPreInc (m : MMode) (d : Nat) (b : Nat) (x : Nat) : Statement (.loadLockedIdxPreInc m d b x) := by
  intro h
  change (specifierOk d && specifierOk b && specifierOk x) = true at h
  simp only [specifierOk, Bool.and_eq_true, decide_eq_true_eq] at h
  have h0 := MMode.code_lt m
  refine Eq.trans (field_opWord _ _ _ ?_ ?_ ?_) (?_ : _ = 3) <;> omega

theorem loadLockedIdxPreDec (m : MMode) (d : Nat) (b : Nat) (x : Nat) : Statement (.loadLockedIdxPreDec m d b x) := by
  intro h
  change (specifierOk d && specifierOk b && specifierOk x) = true at h
  simp only [specifierOk, Bool.and_eq_true, decide_eq_true_eq] at h
  have h0 := MMode.code_lt m
  refine Eq.trans (field_opWord _ _ _ ?_ ?_ ?_) (?_ : _ = 3) <;> omega

theorem storeCondDisp (m : MMode) (d : Nat) (b : Nat) (off : BitVec 12) : Statement (.storeCondDisp m d b off) := by
  intro h
  change (specifierOk d && specifierOk b) = true at h
  simp only [specifierOk, Bool.and_eq_true, decide_eq_true_eq] at h
  have h0 := MMode.code_lt m
  have h1 := off.isLt
  refine Eq.trans (field_opWord _ _ _ ?_ ?_ ?_) (?_ : _ = 2) <;> omega

theorem storeCondReg (m : MMode) (d : Nat) (x : Nat) : Statement (.storeCondReg m d x) := by
  intro h
  change (specifierOk d && specifierOk x) = true at h
  simp only [specifierOk, Bool.and_eq_true, decide_eq_true_eq] at h
  have h0 := MMode.code_lt m
  refine Eq.trans (field_opWord _ _ _ ?_ ?_ ?_) (?_ : _ = 2) <;> omega

theorem storeCondRegPostInc (m : MMode) (d : Nat) (x : Nat) : Statement (.storeCondRegPostInc m d x) := by
  intro h
  change (specifierOk d && specifierOk x) = true at h
  simp only [specifierOk, Bool.and_eq_true, decide_eq_true_eq] at h
  have h0 := MMode.code_lt m
  refine Eq.trans (field_opWord _ _ _ ?_ ?_ ?_) (?_ : _ = 2) <;> omega

theorem storeCondRegPostDec (m : MMode) (d : Nat) (x : Nat) : Statement (.storeCondRegPostDec m d x) := by
  intro h
  change (specifierOk d && specifierOk x) = true at h
  simp only [specifierOk, Bool.and_eq_true, decide_eq_true_eq] at h
  have h0 := MMode.code_lt m
  refine Eq.trans (field_opWord _ _ _ ?_ ?_ ?_) (?_ : _ = 2) <;> omega

theorem storeCondRegPreInc (m : MMode) (d : Nat) (x : Nat) : Statement (.storeCondRegPreInc m d x) := by
  intro h
  change (specifierOk d && specifierOk x) = true at h
  simp only [specifierOk, Bool.and_eq_true, decide_eq_true_eq] at h
  have h0 := MMode.code_lt m
  refine Eq.trans (field_opWord _ _ _ ?_ ?_ ?_) (?_ : _ = 2) <;> omega

theorem storeCondRegPreDec (m : MMode) (d : Nat) (x : Nat) : Statement (.storeCondRegPreDec m d x) := by
  intro h
  change (specifierOk d && specifierOk x) = true at h
  simp only [specifierOk, Bool.and_eq_true, decide_eq_true_eq] at h
  have h0 := MMode.code_lt m
  refine Eq.trans (field_opWord _ _ _ ?_ ?_ ?_) (?_ : _ = 2) <;> omega

theorem storeCondIdx (m : MMode) (d : Nat) (b : Nat) (x : Nat) : Statement (.storeCondIdx m d b x) := by
  intro h
  change (specifierOk d && specifierOk b && specifierOk x) = true at h
  simp only [specifierOk, Bool.and_eq_true, decide_eq_true_eq] at h
  have h0 := MMode.code_lt m
  refine Eq.trans (field_opWord _ _ _ ?_ ?_ ?_) (?_ : _ = 2) <;> omega

theorem storeCondIdxPostInc (m : MMode) (d : Nat) (b : Nat) (x : Nat) : Statement (.storeCondIdxPostInc m d b x) := by
  intro h
  change (specifierOk d && specifierOk b && specifierOk x) = true at h
  simp only [specifierOk, Bool.and_eq_true, decide_eq_true_eq] at h
  have h0 := MMode.code_lt m
  refine Eq.trans (field_opWord _ _ _ ?_ ?_ ?_) (?_ : _ = 2) <;> omega

theorem storeCondIdxPostDec (m : MMode) (d : Nat) (b : Nat) (x : Nat) : Statement (.storeCondIdxPostDec m d b x) := by
  intro h
  change (specifierOk d && specifierOk b && specifierOk x) = true at h
  simp only [specifierOk, Bool.and_eq_true, decide_eq_true_eq] at h
  have h0 := MMode.code_lt m
  refine Eq.trans (field_opWord _ _ _ ?_ ?_ ?_) (?_ : _ = 2) <;> omega

theorem storeCondIdxPreInc (m : MMode) (d : Nat) (b : Nat) (x : Nat) : Statement (.storeCondIdxPreInc m d b x) := by
  intro h
  change (specifierOk d && specifierOk b && specifierOk x) = true at h
  simp only [specifierOk, Bool.and_eq_true, decide_eq_true_eq] at h
  have h0 := MMode.code_lt m
  refine Eq.trans (field_opWord _ _ _ ?_ ?_ ?_) (?_ : _ = 2) <;> omega

theorem storeCondIdxPreDec (m : MMode) (d : Nat) (b : Nat) (x : Nat) : Statement (.storeCondIdxPreDec m d b x) := by
  intro h
  change (specifierOk d && specifierOk b && specifierOk x) = true at h
  simp only [specifierOk, Bool.and_eq_true, decide_eq_true_eq] at h
  have h0 := MMode.code_lt m
  refine Eq.trans (field_opWord _ _ _ ?_ ?_ ?_) (?_ : _ = 2) <;> omega

theorem movRegReg (m : MMode) (d : Nat) (x : Nat) : Statement (.movRegReg m d x) := by
  intro h
  change (specifierOk d && specifierOk x) = true at h
  simp only [specifierOk, Bool.and_eq_true, decide_eq_true_eq] at h
  have h0 := MMode.code_lt m
  refine Eq.trans (field_opWord _ _ _ ?_ ?_ ?_) (?_ : _ = 3) <;> omega

theorem movRegSpc (m : MMode) (d : Nat) (x : Nat) : Statement (.movRegSpc m d x) := by
  intro h
  change (specifierOk d && specifierOk x) = true at h
  simp only [specifierOk, Bool.and_eq_true, decide_eq_true_eq] at h
  have h0 := MMode.code_lt m
  refine Eq.trans (field_opWord _ _ _ ?_ ?_ ?_) (?_ : _ = 3) <;> omega

theorem movSpcReg (m : MMode) (d : Nat) (x : Nat) : Statement (.movSpcReg m d x) := by
  intro h
  change (specifierOk d && specifierOk x) = true at h
  simp only [specifierOk, Bool.and_eq_true, decide_eq_true_eq] at h
  have h0 := MMode.code_lt m
  refine Eq.trans (field_opWord _ _ _ ?_ ?_ ?_) (?_ : _ = 3) <;> omega

theorem movRegDsp (m : MMode) (d : Nat) (x : Nat) : Statement (.movRegDsp m d x) := by
  intro h
  change (specifierOk d && specifierOk x) = true at h
  simp only [specifierOk, Bool.and_eq_true, decide_eq_true_eq] at h
  have h0 := MMode.code_lt m
  refine Eq.trans (field_opWord _ _ _ ?_ ?_ ?_) (?_ : _ = 3) <;> omega

theorem movDspReg (m : MMode) (d : Nat) (x : Nat) : Statement (.movDspReg m d x) := by
  intro h
  change (specifierOk d && specifierOk x) = true at h
  simp only [specifierOk, Bool.and_eq_true, decide_eq_true_eq] at h
  have h0 := MMode.code_lt m
  refine Eq.trans (field_opWord _ _ _ ?_ ?_ ?_) (?_ : _ = 3) <;> omega

theorem movRegFpr (m : MMode) (d : Nat) (x : Nat) : Statement (.movRegFpr m d x) := by
  intro h
  change (specifierOk d && specifierOk x) = true at h
  simp only [specifierOk, Bool.and_eq_true, decide_eq_true_eq] at h
  have h0 := MMode.code_lt m
  refine Eq.trans (field_opWord _ _ _ ?_ ?_ ?_) (?_ : _ = 3) <;> omega

theorem movFprReg (m : MMode) (d : Nat) (x : Nat) : Statement (.movFprReg m d x) := by
  intro h
  change (specifierOk d && specifierOk x) = true at h
  simp only [specifierOk, Bool.and_eq_true, decide_eq_true_eq] at h
  have h0 := MMode.code_lt m
  refine Eq.trans (field_opWord _ _ _ ?_ ?_ ?_) (?_ : _ = 3) <;> omega

theorem loadImm (m : MMode) (u : Bool) (d : Nat) (imm : BitVec 18) : Statement (.loadImm m u d imm) := by
  intro h
  change (specifierOk d) = true at h
  simp only [specifierOk, decide_eq_true_eq] at h
  have h0 := MMode.code_lt m
  have h1 := Bool.toNat_lt u
  have h2 := imm.isLt
  refine Eq.trans (field_opWord _ _ _ ?_ ?_ ?_) (?_ : _ = 3) <;> omega

theorem addReg (m : MMode) (u : Bool) (d : Nat) (r : Nat) : Statement (.addReg m u d r) := by
  intro h
  change (specifierOk d && specifierOk r) = true at h
  simp only [specifierOk, Bool.and_eq_true, decide_eq_true_eq] at h
  have h0 := MMode.code_lt m
  have h1 := Bool.toNat_lt u
  refine Eq.trans (field_opWord _ _ _ ?_ ?_ ?_) (?_ : _ = 0) <;> omega

theorem addImm (m : MMode) (u : Bool) (d : Nat) (imm : BitVec 14) : Statement (.addImm m u d imm) := by
  intro h
  change (specifierOk d) = true at h
  simp only [specifierOk, decide_eq_true_eq] at h
  have h0 := MMode.code_lt m
  have h1 := Bool.toNat_lt u
  have h2 := imm.isLt
  refine Eq.trans (field_opWord _ _ _ ?_ ?_ ?_) (?_ : _ = 0) <;> omega

theorem subReg (m : MMode) (u : Bool) (d : Nat) (r : Nat) : Statement (.subReg m u d r) := by
  intro h
  change (specifierOk d && specifierOk r) = true at h
  simp only [specifierOk, Bool.and_eq_true, decide_eq_true_eq] at h
  have h0 := MMode.code_lt m
  have h1 := Bool.toNat_lt u
  refine Eq.trans (field_opWord _ _ _ ?_ ?_ ?_) (?_ : _ = 0) <;> omega

theorem subImm (m : MMode) (u : Bool) (d : Nat) (imm : BitVec 14) : Statement (.subImm m u d imm) := by
  intro h
  change (specifierOk d) = true at h
  simp only [specifierOk, decide_eq_true_eq] at h
  have h0 := MMode.code_lt m
  have h1 := Bool.toNat_lt u
  have h2 := imm.isLt
  refine Eq.trans (field_opWord _ _ _ ?_ ?_ ?_) (?_ : _ = 0) <;> omega

theorem mulReg (m : MMode) (u : Bool) (d : Nat) (r : Nat) : Statement (.mulReg m u d r) := by
  intro h
  change (specifierOk d && specifierOk r) = true at h
  simp only [specifierOk, Bool.and_eq_true, decide_eq_true_eq] at h
  have h0 := MMode.code_lt m
  have h1 := Bool.toNat_lt u
  refine Eq.trans (field_opWord _ _ _ ?_ ?_ ?_) (?_ : _ = 0) <;> omega

theorem mulImm (m : MMode) (u : Bool) (d : Nat) (imm : BitVec 14) : Statement (.mulImm m u d imm) := by
  intro h
  change (specifierOk d) = true at h
  simp only [specifierOk, decide_eq_true_eq] at h
  have h0 := MMode.code_lt m
  have h1 := Bool.toNat_lt u
  have h2 := imm.isLt
  refine Eq.trans (field_opWord _ _ _ ?_ ?_ ?_) (?_ : _ = 0) <;> omega

theorem divReg (m : MMode) (u : Bool) (d : Nat) (r : Nat) : Statement (.divReg m u d r) := by
  intro h
  change (specifierOk d && specifierOk r) = true at h
  simp only [specifierOk, Bool.and_eq_true, decide_eq_true_eq] at h
  have h0 := MMode.code_lt m
  have h1 := Bool.toNat_lt u
  refine Eq.trans (field_opWord _ _ _ ?_ ?_ ?_) (?_ : _ = 0) <;> omega

theorem divImm (m : MMode) (u : Bool) (d : Nat) (imm : BitVec 14) : Statement (.divImm m u d imm) := by
  intro h
  change (specifierOk d) = true at h
  simp only [specifierOk, decide_eq_true_eq] at h
  have h0 := MMode.code_lt m
  have h1 := Bool.toNat_lt u
  have h2 := imm.isLt
  refine Eq.trans (field_opWord _ _ _ ?_ ?_ ?_) (?_ : _ = 0) <;> omega

theorem slReg (m : MMode) (u : Bool) (d : Nat) (r : Nat) : Statement (.slReg m u d r) := by
  intro h
  change (specifierOk d && specifierOk r) = true at h
  simp only [specifierOk, Bool.and_eq_true, decide_eq_true_eq] at h
  have h0 := MMode.code_lt m
  have h1 := Bool.toNat_lt u
  refine Eq.trans (field_opWord _ _ _ ?_ ?_ ?_) (?_ : _ = 0) <;> omega

theorem slImm (m : MMode) (u : Bool) (d : Nat) (imm : BitVec 14) : Statement (.slImm m u d imm) := by
  intro h
  change (specifierOk d) = true at h
  simp only [specifierOk, decide_eq_true_eq] at h
  have h0 := MMode.code_lt m
  have h1 := Bool.toNat_lt u
  have h2 := imm.isLt
  refine Eq.trans (field_opWord _ _ _ ?_ ?_ ?_) (?_ : _ = 0) <;> omega

theorem srReg (m : MMode) (u : Bool) (d : Nat) (r : Nat) : Statement (.srReg m u d r) := by
  intro h
  change (specifierOk d && specifierOk r) = true at h
  simp only [specifierOk, Bool.and_eq_true, decide_eq_true_eq] at h
  have h0 := MMode.code_lt m
  have h1 := Bool.toNat_lt u
  refine Eq.trans (field_opWord _ _ _ ?_ ?_ ?_) (?_ : _ = 0) <;> omega

theorem srImm (m : MMode) (u : Bool) (d : Nat) (imm : BitVec 14) : Statement (.srImm m u d imm) := by
  intro h
  change (specifierOk d) = true at h
  simp only [specifierOk, decide_eq_true_eq] at h
  have h0 := MMode.code_lt m
  have h1 := Bool.toNat_lt u
  have h2 := imm.isLt
  refine Eq.trans (field_opWord _ _ _ ?_ ?_ ?_) (?_ : _ = 0) <;> omega

theorem andReg (m : MMode) (u : Bool) (d : Nat) (r : Nat) : Statement (.andReg m u d r) := by
  intro h
  change (specifierOk d && specifierOk r) = true at h
  simp only [specifierOk, Bool.and_eq_true, decide_eq_true_eq] at h
  have h0 := MMode.code_lt m
  have h1 := Bool.toNat_lt u
  refine Eq.trans (field_opWord _ _ _ ?_ ?_ ?_) (?_ : _ = 0) <;> omega

theorem andImm (m : MMode) (u : Bool) (d : Nat) (imm : BitVec 14) : Statement (.andImm m u d imm) := by
  intro h
  change (specifierOk d) = true at h
  simp only [specifierOk, decide_eq_true_eq] at h
  have h0 := MMode.code_lt m
  have h1 := Bool.toNat_lt u
  have h2 := imm.isLt
  refine Eq.trans (field_opWord _ _ _ ?_ ?_ ?_) (?_ : _ = 0) <;> omega

theorem nandReg (m : MMode) (u : Bool) (d : Nat) (r : Nat) : Statement (.nandReg m u d r) := by
  intro h
  change (specifierOk d && specifierOk r) = true at h
  simp only [specifierOk, Bool.and_eq_true, decide_eq_true_eq] at h
  have h0 := MMode.code_lt m
  have h1 := Bool.toNat_lt u
  refine Eq.trans (field_opWord _ _ _ ?_ ?_ ?_) (?_ : _ = 0) <;> omega

theorem nandImm (m : MMode) (u : Bool) (d : Nat) (imm : BitVec 14) : Statement (.nandImm m u d imm) := by
  intro h
  change (specifierOk d) = true at h
  simp only [specifierOk, decide_eq_true_eq] at h
  have h0 := MMode.code_lt m
  have h1 := Bool.toNat_lt u
  have h2 := imm.isLt
  refine Eq.trans (field_opWord _ _ _ ?_ ?_ ?_) (?_ : _ = 0) <;> omega

theorem orReg (m : MMode) (u : Bool) (d : Nat) (r : Nat) : Statement (.orReg m u d r) := by
  intro h
  change (specifierOk d && specifierOk r) = true at h
  simp only [specifierOk, Bool.and_eq_true, decide_eq_true_eq] at h
  have h0 := MMode.code_lt m
  have h1 := Bool.toNat_lt u
  refine Eq.trans (field_opWord _ _ _ ?_ ?_ ?_) (?_ : _ = 0) <;> omega

theorem orImm (m : MMode) (u : Bool) (d : Nat) (imm : BitVec 14) : Statement (.orImm m u d imm) := by
  intro h
  change (specifierOk d) = true at h
  simp only [specifierOk, decide_eq_true_eq] at h
  have h0 := MMode.code_lt m
  have h1 := Bool.toNat_lt u
  have h2 := imm.isLt
  refine Eq.trans (field_opWord _ _ _ ?_ ?_ ?_) (?_ : _ = 0) <;> omega

theorem xorReg (m : MMode) (u : Bool) (d : Nat) (r : Nat) : Statement (.xorReg m u d r) := by
  intro h
  change (specifierOk d && specifierOk r) = true at h
  simp only [specifierOk, Bool.and_eq_true, decide_eq_true_eq] at h
  have h0 := MMode.code_lt m
  have h1 := Bool.toNat_lt u
  refine Eq.trans (field_opWord _ _ _ ?_ ?_ ?_) (?_ : _ = 0) <;> omega

theorem xorImm (m : MMode) (u : Bool) (d : Nat) (imm : BitVec 14) : Statement (.xorImm m u d imm) := by
  intro h
  change (specifierOk d) = true at h
  simp only [specifierOk, decide_eq_true_eq] at h
  have h0 := MMode.code_lt m
  have h1 := Bool.toNat_lt u
  have h2 := imm.isLt
  refine Eq.trans (field_opWord _ _ _ ?_ ?_ ?_) (?_ : _ = 0) <;> omega

theorem rlReg (m : MMode) (d : Nat) (r : Nat) : Statement (.rlReg m d r) := by
  intro h
  change (specifierOk d && specifierOk r) = true at h
  simp only [specifierOk, Bool.and_eq_true, decide_eq_true_eq] at h
  have h0 := MMode.code_lt m
  refine Eq.trans (field_opWord _ _ _ ?_ ?_ ?_) (?_ : _ = 0) <;> omega

theorem rlImm (m : MMode) (d : Nat) (imm : BitVec 14) : Statement (.rlImm m d imm) := by
  intro h
  change (specifierOk d) = true at h
  simp only [specifierOk, decide_eq_true_eq] at h
  have h0 := MMode.code_lt m
  have h1 := imm.isLt
  refine Eq.trans (field_opWord _ _ _ ?_ ?_ ?_) (?_ : _ = 0) <;> omega

theorem rrReg (m : MMode) (d : Nat) (r : Nat) : Statement (.rrReg m d r) := by
  intro h
  change (specifierOk d && specifierOk r) = true at h
  simp only [specifierOk, Bool.and_eq_true, decide_eq_true_eq] at h
  have h0 := MMode.code_lt m
  refine Eq.trans (field_opWord _ _ _ ?_ ?_ ?_) (?_ : _ = 0) <;> omega

theorem rrImm (m : MMode) (d : Nat) (imm : BitVec 14) : Statement (.rrImm m d imm) := by
  intro h
  change (specifierOk d) = true at h
  simp only [specifierOk, decide_eq_true_eq] at h
  have h0 := MMode.code_lt m
  have h1 := imm.isLt
  refine Eq.trans (field_opWord _ _ _ ?_ ?_ ?_) (?_ : _ = 0) <;> omega

theorem sbReg (m : MMode) (d : Nat) (r : Nat) : Statement (.sbReg m d r) := by
  intro h
  change (specifierOk d && specifierOk r) = true at h
  simp only [specifierOk, Bool.and_eq_true, decide_eq_true_eq] at h
  have h0 := MMode.code_lt m
  refine Eq.trans (field_opWord _ _ _ ?_ ?_ ?_) (?_ : _ = 0) <;> omega

theorem sbImm (m : MMode) (d : Nat) (imm : BitVec 14) : Statement (.sbImm m d imm) := by
  intro h
  change (specifierOk d) = true at h
  simp only [specifierOk, decide_eq_true_eq] at h
  have h0 := MMode.code_lt m
  have h1 := imm.isLt
  refine Eq.trans (field_opWord _ _ _ ?_ ?_ ?_) (?_ : _ = 0) <;> omega

theorem rbReg (m : MMode) (d : Nat) (r : Nat) : Statement (.rbReg m d r) := by
  intro h
  change (specifierOk d && specifierOk r) = true at h
  simp only [specifierOk, Bool.and_eq_true, decide_eq_true_eq] at h
  have h0 := MMode.code_lt m
  refine Eq.trans (field_opWord _ _ _ ?_ ?_ ?_) (?_ : _ = 0) <;> omega

theorem rbImm (m : MMode) (d : Nat) (imm : BitVec 14) : Statement (.rbImm m d imm) := by
  intro h
  change (specifierOk d) = true at h
  simp only [specifierOk, decide_eq_true_eq] at h
  have h0 := MMode.code_lt m
  have h1 := imm.isLt
  refine Eq.trans (field_opWord _ _ _ ?_ ?_ ?_) (?_ : _ = 0) <;> omega

theorem tbReg (m : MMode) (d : Nat) (r : Nat) : Statement (.tbReg m d r) := by
  intro h
  change (specifierOk d && specifierOk r) = true at h
  simp only [specifierOk, Bool.and_eq_true, decide_eq_true_eq] at h
  have h0 := MMode.code_lt m
  refine Eq.trans (field_opWord _ _ _ ?_ ?_ ?_) (?_ : _ = 0) <;> omega

theorem tbImm (m : MMode) (d : Nat) (imm : BitVec 14) : Statement (.tbImm m d imm) := by
  intro h
  change (specifierOk d) = true at h
  simp only [specifierOk, decide_eq_true_eq] at h
  have h0 := MMode.code_lt m
  have h1 := imm.isLt
  refine Eq.trans (field_opWord _ _ _ ?_ ?_ ?_) (?_ : _ = 0) <;> omega

theorem rvbReg (m : MMode) (d : Nat) (r : Nat) : Statement (.rvbReg m d r) := by
  intro h
  change (specifierOk d && specifierOk r) = true at h
  simp only [specifierOk, Bool.and_eq_true, decide_eq_true_eq] at h
  have h0 := MMode.code_lt m
  refine Eq.trans (field_opWord _ _ _ ?_ ?_ ?_) (?_ : _ = 0) <;> omega

theorem rvbImm (m : MMode) (d : Nat) (imm : BitVec 14) : Statement (.rvbImm m d imm) := by
  intro h
  change (specifierOk d) = true at h
  simp only [specifierOk, decide_eq_true_eq] at h
  have h0 := MMode.code_lt m
  have h1 := imm.isLt
  refine Eq.trans (field_opWord _ _ _ ?_ ?_ ?_) (?_ : _ = 0) <;> omega

theorem madReg (m : MMode) (u : Bool) (d : Nat) (r : Nat) (t : Nat) : Statement (.madReg m u d r t) := by
  intro h
  change (specifierOk d && specifierOk r && specifierOk t) = true at h
  simp only [specifierOk, Bool.and_eq_true, decide_eq_true_eq] at h
  have h0 := MMode.code_lt m
  have h1 := Bool.toNat_lt u
  refine Eq.trans (field_opWord _ _ _ ?_ ?_ ?_) (?_ : _ = 0) <;> omega

theorem madImm (m : MMode) (u : Bool) (d : Nat) (r : Nat) (imm : BitVec 8) : Statement (.madImm m u d r imm) := by
  intro h
  change (specifierOk d && specifierOk r) = true at h
  simp only [specifierOk, Bool.and_eq_true, decide_eq_true_eq] at h
  have h0 := MMode.code_lt m
  have h1 := Bool.toNat_lt u
  have h2 := imm.isLt
  refine Eq.trans (field_opWord _ _ _ ?_ ?_ ?_) (?_ : _ = 0) <;> omega

theorem msuReg (m : MMode) (u : Bool) (d : Nat) (r : Nat) (t : Nat) : Statement (.msuReg m u d r t) := by
  intro h
  change (specifierOk d && specifierOk r && specifierOk t) = true at h
  simp only [specifierOk, Bool.and_eq_true, decide_eq_true_eq] at h
  have h0 := MMode.code_lt m
  have h1 := Bool.toNat_lt u
  refine Eq.trans (field_opWord _ _ _ ?_ ?_ ?_) (?_ : _ = 0) <;> omega

theorem msuImm (m : MMode) (u : Bool) (d : Nat) (r : Nat) (imm : BitVec 8) : Statement (.msuImm m u d r imm) := by
  intro h
  change (specifierOk d && specifierOk r) = true at h
  simp only [specifierOk, Bool.and_eq_true, decide_eq_true_eq] at h
  have h0 := MMode.code_lt m
  have h1 := Bool.toNat_lt u
  have h2 := imm.isLt
  refine Eq.trans (field_opWord _ _ _ ?_ ?_ ?_) (?_ : _ = 0) <;> omega

theorem fadd (d : Nat) (r : Nat) : Statement (.fadd d r) := by
  intro h
  change (specifierOk d && specifierOk r) = true at h
  simp only [specifierOk, Bool.and_eq_true, decide_eq_true_eq] at h
  refine Eq.trans (field_opWord _ _ _ ?_ ?_ ?_) (?_ : _ = 0) <;> omega

theorem fsub (d : Nat) (r : Nat) : Statement (.fsub d r) := by
  intro h
  change (specifierOk d && specifierOk r) = true at h
  simp only [specifierOk, Bool.and_eq_true, decide_eq_true_eq] at h
  refine Eq.trans (field_opWord _ _ _ ?_ ?_ ?_) (?_ : _ = 0) <;> omega

theorem fmul (d : Nat) (r : Nat) : Statement (.fmul d r) := by
  intro h
  change (specifierOk d && specifierOk r) = true at h
  simp only [specifierOk, Bool.and_eq_true, decide_eq_true_eq] at h
  refine Eq.trans (field_opWord _ _ _ ?_ ?_ ?_) (?_ : _ = 0) <;> omega

theorem fdiv (d : Nat) (r : Nat) : Statement (.fdiv d r) := by
  intro h
  change (specifierOk d && specifierOk r) = true at h
  simp only [specifierOk, Bool.and_eq_true, decide_eq_true_eq] at h
  refine Eq.trans (field_opWord _ _ _ ?_ ?_ ?_) (?_ : _ = 0) <;> omega

theorem frem (d : Nat) (r : Nat) : Statement (.frem d r) := by
  intro h
  change (specifierOk d && specifierOk r) = true at h
  simp only [specifierOk, Bool.and_eq_true, decide_eq_true_eq] at h
  refine Eq.trans (field_opWord _ _ _ ?_ ?_ ?_) (?_ : _ = 0) <;> omega

theorem fcmp (d : Nat) (r : Nat) : Statement (.fcmp d r) := by
  intro h
  change (specifierOk d && specifierOk r) = true at h
  simp only [specifierOk, Bool.and_eq_true, decide_eq_true_eq] at h
  refine Eq.trans (field_opWord _ _ _ ?_ ?_ ?_) (?_ : _ = 0) <;> omega

theorem fsqr (d : Nat) : Statement (.fsqr d) := by
  intro h
  change (specifierOk d) = true at h
  simp only [specifierOk, decide_eq_true_eq] at h
  refine Eq.trans (field_opWord _ _ _ ?_ ?_ ?_) (?_ : _ = 0) <;> omega

theorem fabs (d : Nat) : Statement (.fabs d) := by
  intro h
  change (specifierOk d) = true at h
  simp only [specifierOk, decide_eq_true_eq] at h
  refine Eq.trans (field_opWord _ _ _ ?_ ?_ ?_) (?_ : _ = 0) <;> omega

theorem fneg (d : Nat) : Statement (.fneg d) := by
  intro h
  change (specifierOk d) = true at h
  simp only [specifierOk, decide_eq_true_eq] at h
  refine Eq.trans (field_opWord _ _ _ ?_ ?_ ?_) (?_ : _ = 0) <;> omega

theorem frnd (d : Nat) : Statement (.frnd d) := by
  intro h
  change (specifierOk d) = true at h
  simp only [specifierOk, decide_eq_true_eq] at h
  refine Eq.trans (field_opWord _ _ _ ?_ ?_ ?_) (?_ : _ = 0) <;> omega

theorem ff2i (m : MMode) (u : Bool) (d : Nat) : Statement (.ff2i m u d) := by
  intro h
  change (specifierOk d) = true at h
  simp only [specifierOk, decide_eq_true_eq] at h
  have h0 := MMode.code_lt m
  have h1 := Bool.toNat_lt u
  refine Eq.trans (field_opWord _ _ _ ?_ ?_ ?_) (?_ : _ = 0) <;> omega

theorem fi2f (m : MMode) (u : Bool) (d : Nat) : Statement (.fi2f m u d) := by
  intro h
  change (specifierOk d) = true at h
  simp only [specifierOk, decide_eq_true_eq] at h
  have h0 := MMode.code_lt m
  have h1 := Bool.toNat_lt u
  refine Eq.trans (field_opWord _ _ _ ?_ ?_ ?_) (?_ : _ = 0) <;> omega

theorem fextH (d : Nat) : Statement (.fextH d) := by
  intro h
  change (specifierOk d) = true at h
  simp only [specifierOk, decide_eq_true_eq] at h
  refine Eq.trans (field_opWord _ _ _ ?_ ?_ ?_) (?_ : _ = 0) <;> omega

theorem fextW (d : Nat) : Statement (.fextW d) := by
  intro h
  change (specifierOk d) = true at h
  simp only [specifierOk, decide_eq_true_eq] at h
  refine Eq.trans (field_opWord _ _ _ ?_ ?_ ?_) (?_ : _ = 0) <;> omega

theorem fextD (d : Nat) : Statement (.fextD d) := by
  intro h
  change (specifierOk d) = true at h
  simp only [specifierOk, decide_eq_true_eq] at h
  refine Eq.trans (field_opWord _ _ _ ?_ ?_ ?_) (?_ : _ = 0) <;> omega

theorem fextQ (d : Nat) : Statement (.fextQ d) := by
  intro h
  change (specifierOk d) = true at h
  simp only [specifierOk, decide_eq_true_eq] at h
  refine Eq.trans (field_opWord _ _ _ ?_ ?_ ?_) (?_ : _ = 0) <;> omega

theorem fext1 (d : Nat) : Statement (.fext1 d) := by
  intro h
  change (specifierOk d) = true at h
  simp only [specifierOk, decide_eq_true_eq] at h
  refine Eq.trans (field_opWord _ _ _ ?_ ?_ ?_) (?_ : _ = 0) <;> omega

theorem fsqzH (d : Nat) : Statement (.fsqzH d) := by
  intro h
  change (specifierOk d) = true at h
  simp only [specifierOk, decide_eq_true_eq] at h
  refine Eq.trans (field_opWord _ _ _ ?_ ?_ ?_) (?_ : _ = 0) <;> omega

theorem fsqzW (d : Nat) : Statement (.fsqzW d) := by
  intro h
  change (specifierOk d) = true at h
  simp only [specifierOk, decide_eq_true_eq] at h
  refine Eq.trans (field_opWord _ _ _ ?_ ?_ ?_) (?_ : _ = 0) <;> omega

theorem fsqzD (d : Nat) : Statement (.fsqzD d) := by
  intro h
  change (specifierOk d) = true at h
  simp only [specifierOk, decide_eq_true_eq] at h
  refine Eq.trans (field_opWord _ _ _ ?_ ?_ ?_) (?_ : _ = 0) <;> omega

theorem fsqzQ (d : Nat) : Statement (.fsqzQ d) := by
  intro h
  change (specifierOk d) = true at h
  simp only [specifierOk, decide_eq_true_eq] at h
  refine Eq.trans (field_opWord _ _ _ ?_ ?_ ?_) (?_ : _ = 0) <;> omega

theorem fsqz1 (d : Nat) : Statement (.fsqz1 d) := by
  intro h
  change (specifierOk d) = true at h
  simp only [specifierOk, decide_eq_true_eq] at h
  refine Eq.trans (field_opWord _ _ _ ?_ ?_ ?_) (?_ : _ = 0) <;> omega

theorem fmad (d : Nat) (r : Nat) (t : Nat) : Statement (.fmad d r t) := by
  intro h
  change (specifierOk d && specifierOk r && specifierOk t) = true at h
  simp only [specifierOk, Bool.and_eq_true, decide_eq_true_eq] at h
  refine Eq.trans (field_opWord _ _ _ ?_ ?_ ?_) (?_ : _ = 0) <;> omega

theorem fmsu (d : Nat) (r : Nat) (t : Nat) : Statement (.fmsu d r t) := by
  intro h
  change (specifierOk d && specifierOk r && specifierOk t) = true at h
  simp only [specifierOk, Bool.and_eq_true, decide_eq_true_eq] at h
  refine Eq.trans (field_opWord _ _ _ ?_ ?_ ?_) (?_ : _ = 0) <;> omega

theorem jmpReg (a : Bool) (p : Bool) (l : Nat) : Statement (.jmpReg a p l) := by
  intro h
  change (specifierOk l) = true at h
  simp only [specifierOk, decide_eq_true_eq] at h
  have h0 := Bool.toNat_lt a
  have h1 := Bool.toNat_lt p
  refine Eq.trans (field_opWord _ _ _ ?_ ?_ ?_) (?_ : _ = 1) <;> omega

theorem jmpOff (a : Bool) (p : Bool) (off : BitVec 20) : Statement (.jmpOff a p off) := by
  intro h
  have h0 := Bool.toNat_lt a
  have h1 := Bool.toNat_lt p
  have h2 := off.isLt
  refine Eq.trans (field_opWord _ _ _ ?_ ?_ ?_) (?_ : _ = 1) <;> omega

theorem bzReg (m : MMode) (a : Bool) (p : Bool) (g : Nat) (l : Nat) : Statement (.bzReg m a p g l) := by
  intro h
  change (specifierOk g && specifierOk l) = true at h
  simp only [specifierOk, Bool.and_eq_true, decide_eq_true_eq] at h
  have h0 := MMode.code_lt m
  have h1 := Bool.toNat_lt a
  have h2 := Bool.toNat_lt p
  refine Eq.trans (field_opWord _ _ _ ?_ ?_ ?_) (?_ : _ = 1) <;> omega

theorem bzOff (m : MMode) (a : Bool) (p : Bool) (g : Nat) (off : BitVec 14) : Statement (.bzOff m a p g off) := by
  intro h
  change (specifierOk g) = true at h
  simp only [specifierOk, decide_eq_true_eq] at h
  have h0 := MMode.code_lt m
  have h1 := Bool.toNat_lt a
  have h2 := Bool.toNat_lt p
  have h3 := off.isLt
  refine Eq.trans (field_opWord _ _ _ ?_ ?_ ?_) (?_ : _ = 1) <;> omega

theorem bnzReg (m : MMode) (a : Bool) (p : Bool) (g : Nat) (l : Nat) : Statement (.bnzReg m a p g l) := by
  intro h
  change (specifierOk g && specifierOk l) = true at h
  simp only [specifierOk, Bool.and_eq_true, decide_eq_true_eq] at h
  have h0 := MMode.code_lt m
  have h1 := Bool.toNat_lt a
  have h2 := Bool.toNat_lt p
  refine Eq.trans (field_opWord _ _ _ ?_ ?_ ?_) (?_ : _ = 1) <;> omega

theorem bnzOff (m : MMode) (a : Bool) (p : Bool) (g : Nat) (off : BitVec 14) : Statement (.bnzOff m a p g off) := by
  intro h
  change (specifierOk g) = true at h
  simp only [specifierOk, decide_eq_true_eq] at h
  have h0 := MMode.code_lt m
  have h1 := Bool.toNat_lt a
  have h2 := Bool.toNat_lt p
  have h3 := off.isLt
  refine Eq.trans (field_opWord _ _ _ ?_ ?_ ?_) (?_ : _ = 1) <;> omega

theorem bmReg (m : MMode) (a : Bool) (p : Bool) (g : Nat) (l : Nat) : Statement (.bmReg m a p g l) := by
  intro h
  change (specifierOk g && specifierOk l) = true at h
  simp only [specifierOk, Bool.and_eq_true, decide_eq_true_eq] at h
  have h0 := MMode.code_lt m
  have h1 := Bool.toNat_lt a
  have h2 := Bool.toNat_lt p
  refine Eq.trans (field_opWord _ _ _ ?_ ?_ ?_) (?_ : _ = 1) <;> omega

theorem bmOff (m : MMode) (a : Bool) (p : Bool) (g : Nat) (off : BitVec 14) : Statement (.bmOff m a p g off) := by
  intro h
  change (specifierOk g) = true at h
  simp only [specifierOk, decide_eq_true_eq] at h
  have h0 := MMode.code_lt m
  have h1 := Bool.toNat_lt a
  have h2 := Bool.toNat_lt p
  have h3 := off.isLt
  refine Eq.trans (field_opWord _ _ _ ?_ ?_ ?_) (?_ : _ = 1) <;> omega

theorem bmzReg (m : MMode) (a : Bool) (p : Bool) (g : Nat) (l : Nat) : Statement (.bmzReg m a p g l) := by
  intro h
  change (specifierOk g && specifierOk l) = true at h
  simp only [specifierOk, Bool.and_eq_true, decide_eq_true_eq] at h
  have h0 := MMode.code_lt m
  have h1 := Bool.toNat_lt a
  have h2 := Bool.toNat_lt p
  refine Eq.trans (field_opWord _ _ _ ?_ ?_ ?_) (?_ : _ = 1) <;> omega

theorem bmzOff (m : MMode) (a : Bool) (p : Bool) (g : Nat) (off : BitVec 14) : Statement (.bmzOff m a p g off) := by
  intro h
  change (specifierOk g) = true at h
  simp only [specifierOk, decide_eq_true_eq] at h
  have h0 := MMode.code_lt m
  have h1 := Bool.toNat_lt a
  have h2 := Bool.toNat_lt p
  have h3 := off.isLt
  refine Eq.trans (field_opWord _ _ _ ?_ ?_ ?_) (?_ : _ = 1) <;> omega

theorem bnmReg (m : MMode) (a : Bool) (p : Bool) (g : Nat) (l : Nat) : Statement (.bnmReg m a p g l) := by
  intro h
  change (specifierOk g && specifierOk l) = true at h
  simp only [specifierOk, Bool.and_eq_true, decide_eq_true_eq] at h
  have h0 := MMode.code_lt m
  have h1 := Bool.toNat_lt a
  have h2 := Bool.toNat_lt p
  refine Eq.trans (field_opWord _ _ _ ?_ ?_ ?_) (?_ : _ = 1) <;> omega

theorem bnmOff (m : MMode) (a : Bool) (p : Bool) (g : Nat) (off : BitVec 14) : Statement (.bnmOff m a p g off) := by
  intro h
  change (specifierOk g) = true at h
  simp only [specifierOk, decide_eq_true_eq] at h
  have h0 := MMode.code_lt m
  have h1 := Bool.toNat_lt a
  have h2 := Bool.toNat_lt p
  have h3 := off.isLt
  refine Eq.trans (field_opWord _ _ _ ?_ ?_ ?_) (?_ : _ = 1) <;> omega

theorem bnmoReg (m : MMode) (a : Bool) (p : Bool) (g : Nat) (l : Nat) : Statement (.bnmoReg m a p g l) := by
  intro h
  change (specifierOk g && specifierOk l) = true at h
  simp only [specifierOk, Bool.and_eq_true, decide_eq_true_eq] at h
  have h0 := MMode.code_lt m
  have h1 := Bool.toNat_lt a
  have h2 := Bool.toNat_lt p
  refine Eq.trans (field_opWord _ _ _ ?_ ?_ ?_) (?_ : _ = 1) <;> omega

theorem bnmoOff (m : MMode) (a : Bool) (p : Bool) (g : Nat) (off : BitVec 14) : Statement (.bnmoOff m a p g off) := by
  intro h
  change (specifierOk g) = true at h
  simp only [specifierOk, decide_eq_true_eq] at h
  have h0 := MMode.code_lt m
  have h1 := Bool.toNat_lt a
  have h2 := Bool.toNat_lt p
  have h3 := off.isLt
  refine Eq.trans (field_opWord _ _ _ ?_ ?_ ?_) (?_ : _ = 1) <;> omega

theorem blReg (m : MMode) (a : Bool) (p : Bool) (g : Nat) (l : Nat) : Statement (.blReg m a p g l) := by
  intro h
  change (specifierOk g && specifierOk l) = true at h
  simp only [specifierOk, Bool.and_eq_true, decide_eq_true_eq] at h
  have h0 := MMode.code_lt m
  have h1 := Bool.toNat_lt a
  have h2 := Bool.toNat_lt p
  refine Eq.trans (field_opWord _ _ _ ?_ ?_ ?_) (?_ : _ = 1) <;> omega

theorem blOff (m : MMode) (a : Bool) (p : Bool) (g : Nat) (off : BitVec 14) : Statement (.blOff m a p g off) := by
  intro h
  change (specifierOk g) = true at h
  simp only [specifierOk, decide_eq_true_eq] at h
  have h0 := MMode.code_lt m
  have h1 := Bool.toNat_lt a
  have h2 := Bool.toNat_lt p
  have h3 := off.isLt
  refine Eq.trans (field_opWord _ _ _ ?_ ?_ ?_) (?_ : _ = 1) <;> omega

theorem blzReg (m : MMode) (a : Bool) (p : Bool) (g : Nat) (l : Nat) : Statement (.blzReg m a p g l) := by
  intro h
  change (specifierOk g && specifierOk l) = true at h
  simp only [specifierOk, Bool.and_eq_true, decide_eq_true_eq] at h
  have h0 := MMode.code_lt m
  have h1 := Bool.toNat_lt a
  have h2 := Bool.toNat_lt p
  refine Eq.trans (field_opWord _ _ _ ?_ ?_ ?_) (?_ : _ = 1) <;> omega

theorem blzOff (m : MMode) (a : Bool) (p : Bool) (g : Nat) (off : BitVec 14) : Statement (.blzOff m a p g off) := by
  intro h
  change (specifierOk g) = true at h
  simp only [specifierOk, decide_eq_true_eq] at h
  have h0 := MMode.code_lt m
  have h1 := Bool.toNat_lt a
  have h2 := Bool.toNat_lt p
  have h3 := off.isLt
  refine Eq.trans (field_opWord _ _ _ ?_ ?_ ?_) (?_ : _ = 1) <;> omega

theorem bnlReg (m : MMode) (a : Bool) (p : Bool) (g : Nat) (l : Nat) : Statement (.bnlReg m a p g l) := by
  intro h
  change (specifierOk g && specifierOk l) = true at h
  simp only [specifierOk, Bool.and_eq_true, decide_eq_true_eq] at h
  have h0 := MMode.code_lt m
  have h1 := Bool.toNat_lt a
  have h2 := Bool.toNat_lt p
  refine Eq.trans (field_opWord _ _ _ ?_ ?_ ?_) (?_ : _ = 1) <;> omega

theorem bnlOff (m : MMode) (a : Bool) (p : Bool) (g : Nat) (off : BitVec 14) : Statement (.bnlOff m a p g off) := by
  intro h
  change (specifierOk g) = true at h
  simp only [specifierOk, decide_eq_true_eq] at h
  have h0 := MMode.code_lt m
  have h1 := Bool.toNat_lt a
  have h2 := Bool.toNat_lt p
  have h3 := off.isLt
  refine Eq.trans (field_opWord _ _ _ ?_ ?_ ?_) (?_ : _ = 1) <;> omega

theorem bnloReg (m : MMode) (a : Bool) (p : Bool) (g : Nat) (l : Nat) : Statement (.bnloReg m a p g l) := by
  intro h
  change (specifierOk g && specifierOk l) = true at h
  simp only [specifierOk, Bool.and_eq_true, decide_eq_true_eq] at h
  have h0 := MMode.code_lt m
  have h1 := Bool.toNat_lt a
  have h2 := Bool.toNat_lt p
  refine Eq.trans (field_opWord _ _ _ ?_ ?_ ?_) (?_ : _ = 1) <;> omega

theorem bnloOff (m : MMode) (a : Bool) (p : Bool) (g : Nat) (off : BitVec 14) : Statement (.bnloOff m a p g off) := by
  intro h
  change (specifierOk g) = true at h
  simp only [specifierOk, decide_eq_true_eq] at h
  have h0 := MMode.code_lt m
  have h1 := Bool.toNat_lt a
  have h2 := Bool.toNat_lt p
  have h3 := off.isLt
  refine Eq.trans (field_opWord _ _ _ ?_ ?_ ?_) (?_ : _ = 1) <;> omega

theorem boReg (m : MMode) (a : Bool) (p : Bool) (g : Nat) (l : Nat) : Statement (.boReg m a p g l) := by
  intro h
  change (specifierOk g && specifierOk l) = true at h
  simp only [specifierOk, Bool.and_eq_true, decide_eq_true_eq] at h
  have h0 := MMode.code_lt m
  have h1 := Bool.toNat_lt a
  have h2 := Bool.toNat_lt p
  refine Eq.trans (field_opWord _ _ _ ?_ ?_ ?_) (?_ : _ = 1) <;> omega

theorem boOff (m : MMode) (a : Bool) (p : Bool) (g : Nat) (off : BitVec 14) : Statement (.boOff m a p g off) := by
  intro h
  change (specifierOk g) = true at h
  simp only [specifierOk, decide_eq_true_eq] at h
  have h0 := MMode.code_lt m
  have h1 := Bool.toNat_lt a
  have h2 := Bool.toNat_lt p
  have h3 := off.isLt
  refine Eq.trans (field_opWord _ _ _ ?_ ?_ ?_) (?_ : _ = 1) <;> omega

theorem bnoReg (m : MMode) (a : Bool) (p : Bool) (g : Nat) (l : Nat) : Statement (.bnoReg m a p g l) := by
  intro h
  change (specifierOk g && specifierOk l) = true at h
  simp only [specifierOk, Bool.and_eq_true, decide_eq_true_eq] at h
  have h0 := MMode.code_lt m
  have h1 := Bool.toNat_lt a
  have h2 := Bool.toNat_lt p
  refine Eq.trans (field_opWord _ _ _ ?_ ?_ ?_) (?_ : _ = 1) <;> omega

theorem bnoOff (m : MMode) (a : Bool) (p : Bool) (g : Nat) (off : BitVec 14) : Statement (.bnoOff m a p g off) := by
  intro h
  change (specifierOk g) = true at h
  simp only [specifierOk, decide_eq_true_eq] at h
  have h0 := MMode.code_lt m
  have h1 := Bool.toNat_lt a
  have h2 := Bool.toNat_lt p
  have h3 := off.isLt
  refine Eq.trans (field_opWord _ _ _ ?_ ?_ ?_) (?_ : _ = 1) <;> omega

theorem ret (p : Bool) : Statement (.ret p) := by
  intro h
  have h0 := Bool.toNat_lt p
  refine Eq.trans (field_opWord _ _ _ ?_ ?_ ?_) (?_ : _ = 1) <;> omega

theorem reti (p : Bool) : Statement (.reti p) := by
  intro h
  have h0 := Bool.toNat_lt p
  refine Eq.trans (field_opWord _ _ _ ?_ ?_ ?_) (?_ : _ = 1) <;> omega

theorem rete (p : Bool) : Statement (.rete p) := by
  intro h
  have h0 := Bool.toNat_lt p
  refine Eq.trans (field_opWord _ _ _ ?_ ?_ ?_) (?_ : _ = 1) <;> omega

theorem retn (p : Bool) : Statement (.retn p) := by
  intro h
  have h0 := Bool.toNat_lt p
  refine Eq.trans (field_opWord _ _ _ ?_ ?_ ?_) (?_ : _ = 1) <;> omega

theorem waitReg (l : Nat) : Statement (.waitReg l) := by
  intro h
  change (specifierOk l) = true at h
  simp only [specifierOk, decide_eq_true_eq] at h
  refine Eq.trans (field_opWord _ _ _ ?_ ?_ ?_) (?_ : _ = 1) <;> omega

theorem waitImm (n : BitVec 20) : Statement (.waitImm n) := by
  intro h
  have h0 := n.isLt
  refine Eq.trans (field_opWord _ _ _ ?_ ?_ ?_) (?_ : _ = 1) <;> omega

end Laws.Group

end Sys2Proof
end

