-- ==== Sys2Proof/Laws/Effects.lean ====
section
/-! SUPPORT. What one instruction can do, said once for all of them: every claim over the whole instruction set is a
case analysis of `Effect` and not of the 144 meanings. -/
namespace Sys2Proof.Machine

/-- The states that register writes alone reach. -/
inductive RegWrites (s : State) : State → Prop where
  | none : RegWrites s s
  | gpr {t : State} (n : Nat) {w : Nat} (v : BitVec w) (h : RegWrites s t) : RegWrites s (t.writeGpr n v)
  | fp {t : State} (n : Nat) {w : Nat} (v : BitVec w) (h : RegWrites s t) : RegWrites s (t.writeFp n v)
  | fpr {t : State} (n : Nat) {w : Nat} (v : BitVec w) (h : RegWrites s t) : RegWrites s (t.writeFpr n v)
  | dsp {t : State} (n : Nat) {w : Nat} (v : BitVec w) (h : RegWrites s t) : RegWrites s (t.writeDsp n v)

/-- The states that writes of the GPRs in use alone reach. -/
inductive GprWrites (s : State) : State → Prop where
  | none : GprWrites s s
  | gpr {t : State} (n : Nat) {w : Nat} (v : BitVec w) (h : GprWrites s t) : GprWrites s (t.writeGpr n v)

/-- GPR writes are register writes. -/
theorem GprWrites.regWrites {s t : State} (h : GprWrites s t) : RegWrites s t := by
  induction h with
  | none => exact .none
  | gpr n v _ ih => exact .gpr n v ih

/-- What register writes leave unchanged: all but the register files. -/
theorem RegWrites.frame {s t : State} (h : RegWrites s t) :
    t = { s with banks := t.banks, dsp := t.dsp, fpr := t.fpr } := by
  have writeFp_frame : ∀ (u : State) (n : Nat) {w : Nat} (v : BitVec w),
      u.writeFp n v = { u with banks := (u.writeFp n v).banks, fpr := (u.writeFp n v).fpr } := by
    intro u n w v
    unfold State.writeFp
    split <;> rfl
  induction h with
  | none => rfl
  | gpr n v _ ih => rw [ih]; rfl
  | fp n v _ ih => rw [writeFp_frame, ih]
  | fpr n v _ ih => rw [ih]; rfl
  | dsp n v _ ih => rw [ih]; rfl

/-- Register writes change no bank but the one in use, and no number of banks. -/
theorem RegWrites.banks {s t : State} (h : RegWrites s t) :
    t.banks.length = s.banks.length ∧ ∀ b, b ≠ s.bank → t.banks[b]? = s.banks[b]? := by
  have scr : ∀ {u}, RegWrites s u → u.bank = s.bank := by
    intro u hu
    rw [hu.frame]
    rfl
  induction h with
  | none => exact ⟨rfl, fun _ _ => rfl⟩
  | gpr n v hu ih =>
    refine ⟨by simp [ih.1], fun b hb => ?_⟩
    rw [State.writeGpr_banks, scr hu, List.getElem?_set_ne (Ne.symm hb)]
    exact ih.2 b hb
  | fp n v hu ih =>
    rw [State.writeFp_banks]
    split
    · exact ih
    · refine ⟨by simp [ih.1], fun b hb => ?_⟩
      rw [scr hu, List.getElem?_set_ne (Ne.symm hb)]
      exact ih.2 b hb
  | fpr n v _ ih => exact ih
  | dsp n v _ ih => exact ih

/-- What an instruction that answers a next state can have done. -/
inductive Effect (i : Instr) (s : State) : State → Prop where
  /-- A check failed (R406, R408). -/
  | refused (e : Exc) (arithmetic : Bool) (h : arithmetic = true → i.topBits = 0) :
      Effect i s (s.raiseCheck e arithmetic)
  /-- The operation raised a potent exception (R406). -/
  | trapped (raised : List Exc) (h : raised.any s.potent = true) : Effect i s (s.abort raised)
  /-- A data access was refused (R178). -/
  | busError : Effect i s s.dataBusError
  /-- An arithmetic/logic instruction completed: registers, EST and what it raised. -/
  | computed (raised : List Exc) (flags : BitVec 16) (u : State) (hu : RegWrites s u)
      (hn : raised.any s.potent = false) (hg : i.topBits = 0) :
      Effect i s (({ u with est := withFlags u.est flags }.mark raised).advance.retire s)
  /-- A transfer into registers completed; a load-locked made its reservation. -/
  | moved (u : State) (hu : RegWrites s u) (r : Option (Nat × Nat))
      (hr : r = s.reservation ∨ ∃ a, ∃ m : MMode, r = some (a % addressSpace s.cfg, m.bytes))
      (hg : i.topBits = 3) : Effect i s ({ u with reservation := r }.advance.retire s)
  /-- A store, or a store-conditional that succeeded, completed. -/
  | stored (addr n v : Nat) (u : State) (r : Option (Nat × Nat)) (ht : storeTarget i s = some (addr, n))
      (hu : GprWrites { s.memWrite addr n v with reservation := r } u) (hr : r = s.reservation ∨ r = none)
      (hg : i.topBits = 2) : Effect i s (u.advance.retire s)
  /-- A store-conditional that did not succeed completed. -/
  | notStored (u : State) (hu : GprWrites { s with reservation := none } u) (hg : i.topBits = 2) :
      Effect i s (u.advance.retire s)
  /-- A special register was written. -/
  | special (m : MMode) (d x : Nat) (hi : i = .movSpcReg m d x)
      (hc : firstHit (s.specialWriteChecks m d x (s.writeSpc d (s.readGpr x m.width))) = none) :
      Effect i s ((specialWritten (s.touchedEntries d m.width) (s.writeSpc d (s.readGpr x m.width))).retire s)
  /-- A transfer was taken. -/
  | transferred (a p : Bool) (v : DWord) (hv : ∃ x, v = wrapIc s.cfg x) (hg : i.topBits = 1) :
      Effect i s ((s.transfer a p v).retire s)
  /-- A branch was not taken. -/
  | notTaken (hg : i.topBits = 1) : Effect i s (s.advance.retire s)
  /-- RET. -/
  | returned (p : Bool) (hi : i = .ret p) : Effect i s ({ s with ic := returnTarget s.cfg p s.crp }.retire s)
  /-- RETI. -/
  | leftInterrupt (p : Bool) (hi : i = .reti p) : Effect i s ((s.leaveInterrupt p).retire s)
  /-- RETE. -/
  | leftException (p : Bool) (hi : i = .rete p) (hm : s.systemMode = true) :
      Effect i s ((s.leaveException p).retire s)
  /-- RETN. -/
  | leftNmi (p : Bool) (hi : i = .retn p) (hm : s.systemMode = true) : Effect i s ((s.leaveNmi p).retire s)
  /-- WAIT. -/
  | paused (n : Nat) (hg : i.topBits = 1) :
      Effect i s { s with waitTimer := n % 2 ^ s.cfg.waitTimerWidth, waiting := true }

/-! ### Each family -/

section
variable {i : Instr} {s : State}

/-- The index update is a GPR write or nothing. -/
theorem GprWrites.updateIndex {u t : State} (a : Addressing) (m : MMode) (h : GprWrites u t) :
    GprWrites u (a.updateIndex m s t) := by
  unfold Addressing.updateIndex
  cases a with
  | displacement b off => exact h
  | register x upd => cases upd <;> first | exact h | exact h.gpr _ _
  | indexed b x upd => cases upd <;> first | exact h | exact h.gpr _ _

/-- Register writes keep the reservation. -/
theorem RegWrites.reservation {u : State} (h : RegWrites s u) : { u with reservation := s.reservation } = u := by
  have hr : u.reservation = s.reservation := by rw [h.frame]
  rw [← hr]

/-- A transfer that completed with register writes alone. -/
theorem Effect.ofMoved {u : State} (hu : RegWrites s u) (hg : i.topBits = 3) : Effect i s (u.advance.retire s) := by
  have h := Effect.moved (i := i) u hu s.reservation (.inl rfl) hg
  rwa [hu.reservation] at h

/-- An instruction behind its checks. -/
theorem Effect.ofGuarded {arithmetic : Bool} {checks : List (Bool × Exc)} {work : State}
    (ha : arithmetic = true → i.topBits = 0) (hw : firstHit checks = none → Effect i s work) :
    Effect i s (s.guarded arithmetic checks work) :=
  State.guarded_rule s arithmetic checks work (fun e => .refused e arithmetic ha) hw

/-- An arithmetic/logic instruction at its end. -/
theorem Effect.ofComplete {raised : List Exc} {flags : BitVec 16} {u : State} (hu : RegWrites s u)
    (hg : i.topBits = 0) : Effect i s (s.complete raised flags u) :=
  State.complete_rule s raised flags u (fun h => .trapped raised h) fun h => .computed raised flags u hu h hg

theorem loaded_writes (m : MMode) (d : Nat) (a : Addressing) : GprWrites s (loaded m d a s) :=
  (GprWrites.none.updateIndex a m).gpr _ _

theorem runLoad_effect (m : MMode) (d : Nat) (a : Addressing) (hg : i.topBits = 3) : Effect i s (runLoad m d a s) := by
  refine Effect.ofGuarded (fun h => nomatch h) fun _ => ?_
  split
  · exact .busError
  · exact Effect.ofMoved (loaded_writes m d a).regWrites hg

theorem runLoadLocked_effect (m : MMode) (d : Nat) (a : Addressing) (hg : i.topBits = 3) :
    Effect i s (runLoadLocked m d a s) := by
  refine Effect.ofGuarded (fun h => nomatch h) fun _ => ?_
  split
  · exact .busError
  · exact .moved _ (loaded_writes m d a).regWrites _ (.inr ⟨_, m, rfl⟩) hg

theorem runStore_effect (m : MMode) (d : Nat) (a : Addressing) (hg : i.topBits = 2)
    (ht : storeTarget i s = some (a.address m s, m.bytes)) : Effect i s (runStore m d a s) := by
  refine Effect.ofGuarded (fun h => nomatch h) fun _ => ?_
  split
  · exact .busError
  · exact .stored _ _ (s.readGpr d m.width).toNat _ s.reservation ht (GprWrites.none.updateIndex a m) (.inl rfl) hg

theorem runStoreConditional_effect (m : MMode) (d : Nat) (a : Addressing) (hg : i.topBits = 2)
    (ht : storeTarget i s = some (a.address m s, m.bytes)) : Effect i s (runStoreConditional m d a s) := by
  refine Effect.ofGuarded (fun h => nomatch h) fun _ => ?_
  split
  · exact .busError
  · unfold conditionallyStored
    cases reservationHolds m a s with
    | true =>
      exact .stored _ _ (s.readGpr d m.width).toNat _ none ht ((GprWrites.none.updateIndex a m).gpr _ _) (.inr rfl) hg
    | false => exact .notStored _ ((GprWrites.none.updateIndex a m).gpr _ _) hg

theorem runAdd_effect (m : MMode) (u : Bool) (d : Nat) (regs : List Nat) (op2 : BitVec m.width) (hg : i.topBits = 0) :
    Effect i s (runAdd m u d regs op2 s) :=
  Effect.ofGuarded (fun _ => hg) fun _ => Effect.ofComplete (.gpr _ _ .none) hg

theorem runSub_effect (m : MMode) (u : Bool) (d : Nat) (regs : List Nat) (op2 : BitVec m.width) (hg : i.topBits = 0) :
    Effect i s (runSub m u d regs op2 s) :=
  Effect.ofGuarded (fun _ => hg) fun _ => Effect.ofComplete (.gpr _ _ .none) hg

theorem runMul_effect (m : MMode) (u : Bool) (d : Nat) (regs : List Nat) (op2 : BitVec m.width) (hg : i.topBits = 0) :
    Effect i s (runMul m u d regs op2 s) :=
  Effect.ofGuarded (fun _ => hg) fun _ => Effect.ofComplete (.gpr _ _ .none) hg

theorem runDiv_effect (m : MMode) (u : Bool) (d : Nat) (regs : List Nat) (op2 : BitVec m.width) (hg : i.topBits = 0) :
    Effect i s (runDiv m u d regs op2 s) :=
  Effect.ofGuarded (fun _ => hg) fun _ => Effect.ofComplete (.gpr _ _ (.gpr _ _ .none)) hg

theorem runMad_effect (m : MMode) (u : Bool) (d r : Nat) (regs : List Nat) (op3 : BitVec m.width)
    (hg : i.topBits = 0) : Effect i s (runMad m u d r regs op3 s) :=
  Effect.ofGuarded (fun _ => hg) fun _ => Effect.ofComplete (.gpr _ _ .none) hg

theorem runMsu_effect (m : MMode) (u : Bool) (d r : Nat) (regs : List Nat) (op3 : BitVec m.width)
    (hg : i.topBits = 0) : Effect i s (runMsu m u d r regs op3 s) :=
  Effect.ofGuarded (fun _ => hg) fun _ => Effect.ofComplete (.gpr _ _ .none) hg

theorem runLogic_effect (m : MMode) (d : Nat) (regs : List Nat) (op1 op2 res : BitVec m.width) (ov : Bool)
    (hg : i.topBits = 0) : Effect i s (runLogic m d regs op1 op2 res ov s) :=
  Effect.ofGuarded (fun _ => hg) fun _ => Effect.ofComplete (.gpr _ _ .none) hg

theorem runBit_effect (m : MMode) (d : Nat) (regs : List Nat) (op1 op2 res : BitVec m.width) (hg : i.topBits = 0) :
    Effect i s (runBit m d regs op1 op2 res s) := by
  refine Effect.ofGuarded (fun _ => hg) fun _ => ?_
  split
  · exact Effect.ofComplete .none hg
  · exact Effect.ofComplete (.gpr _ _ .none) hg

theorem guardedFp_effect {checks : List (Bool × Exc)} (f : FpFormat) (d : Nat) (k : FpWork) (hg : i.topBits = 0) :
    Effect i s (s.guarded true checks (finishFp f d k s)) :=
  Effect.ofGuarded (fun _ => hg) fun _ => Effect.ofComplete (.fp _ _ .none) hg

theorem runFf2i_effect (m : MMode) (u : Bool) (d : Nat) (hg : i.topBits = 0) : Effect i s (runFf2i m u d s) := by
  refine Effect.ofGuarded (fun _ => hg) fun _ => ?_
  split
  · exact Effect.ofComplete .none hg
  · refine Effect.ofComplete ?_ hg
    unfold State.writeInt
    split
    · exact .fpr _ _ .none
    · exact .gpr _ _ .none

theorem execFcmp_effect (d r : Nat) (hg : i.topBits = 0) :
    Effect i s (s.guarded true (s.fpChecks true (max s.cfg.fp.width 16) [d, r])
      (s.complete (compareRaised s d r) (compareFlags s d r) (s.writeFp d (compareFlags s d r)))) :=
  Effect.ofGuarded (fun _ => hg) fun _ => Effect.ofComplete (.fp _ _ .none) hg

theorem runJump_effect (a p : Bool) (regs : List Nat) (v : DWord) (hv : ∃ x, v = wrapIc s.cfg x)
    (hg : i.topBits = 1) : Effect i s (runJump a p regs v s) :=
  Effect.ofGuarded (fun h => nomatch h) fun _ => .transferred a p v hv hg

theorem runBranch_effect (m : MMode) (a p : Bool) (regs : List Nat) (taken : Bool) (v : DWord)
    (hv : ∃ x, v = wrapIc s.cfg x) (hg : i.topBits = 1) : Effect i s (runBranch m a p regs taken v s) := by
  refine Effect.ofGuarded (fun h => nomatch h) fun _ => ?_
  cases taken with
  | true => exact .transferred a p v hv hg
  | false => exact .notTaken hg

theorem runWait_effect (regs : List Nat) (value : Nat) (hg : i.topBits = 1) : Effect i s (runWait regs value s) :=
  Effect.ofGuarded (fun h => nomatch h) fun _ => .paused value hg

end

/-- Every meaning answers a next state that one of the effects describes. -/
theorem exec_effect (i : Instr) (s t : State) (h : exec i s = .next t) : Effect i s t := by
  cases i with
  | loadDisp m d b off => obtain rfl := Host.Outcome.next.inj h; exact runLoad_effect _ _ _ rfl
  | loadReg m d x => obtain rfl := Host.Outcome.next.inj h; exact runLoad_effect _ _ _ rfl
  | loadRegPostInc m d x => obtain rfl := Host.Outcome.next.inj h; exact runLoad_effect _ _ _ rfl
  | loadRegPostDec m d x => obtain rfl := Host.Outcome.next.inj h; exact runLoad_effect _ _ _ rfl
  | loadRegPreInc m d x => obtain rfl := Host.Outcome.next.inj h; exact runLoad_effect _ _ _ rfl
  | loadRegPreDec m d x => obtain rfl := Host.Outcome.next.inj h; exact runLoad_effect _ _ _ rfl
  | loadIdx m d b x => obtain rfl := Host.Outcome.next.inj h; exact runLoad_effect _ _ _ rfl
  | loadIdxPostInc m d b x => obtain rfl := Host.Outcome.next.inj h; exact runLoad_effect _ _ _ rfl
  | loadIdxPostDec m d b x => obtain rfl := Host.Outcome.next.inj h; exact runLoad_effect _ _ _ rfl
  | loadIdxPreInc m d b x => obtain rfl := Host.Outcome.next.inj h; exact runLoad_effect _ _ _ rfl
  | loadIdxPreDec m d b x => obtain rfl := Host.Outcome.next.inj h; exact runLoad_effect _ _ _ rfl
  | storeDisp m d b off => obtain rfl := Host.Outcome.next.inj h; exact runStore_effect _ _ _ rfl rfl
  | storeReg m d x => obtain rfl := Host.Outcome.next.inj h; exact runStore_effect _ _ _ rfl rfl
  | storeRegPostInc m d x => obtain rfl := Host.Outcome.next.inj h; exact runStore_effect _ _ _ rfl rfl
  | storeRegPostDec m d x => obtain rfl := Host.Outcome.next.inj h; exact runStore_effect _ _ _ rfl rfl
  | storeRegPreInc m d x => obtain rfl := Host.Outcome.next.inj h; exact runStore_effect _ _ _ rfl rfl
  | storeRegPreDec m d x => obtain rfl := Host.Outcome.next.inj h; exact runStore_effect _ _ _ rfl rfl
  | storeIdx m d b x => obtain rfl := Host.Outcome.next.inj h; exact runStore_effect _ _ _ rfl rfl
  | storeIdxPostInc m d b x => obtain rfl := Host.Outcome.next.inj h; exact runStore_effect _ _ _ rfl rfl
  | storeIdxPostDec m d b x => obtain rfl := Host.Outcome.next.inj h; exact runStore_effect _ _ _ rfl rfl
  | storeIdxPreInc m d b x => obtain rfl := Host.Outcome.next.inj h; exact runStore_effect _ _ _ rfl rfl
  | storeIdxPreDec m d b x => obtain rfl := Host.Outcome.next.inj h; exact runStore_effect _ _ _ rfl rfl
  | loadLockedDisp m d b off => obtain rfl := Host.Outcome.next.inj h; exact runLoadLocked_effect _ _ _ rfl
  | loadLockedReg m d x => obtain rfl := Host.Outcome.next.inj h; exact runLoadLocked_effect _ _ _ rfl
  | loadLockedRegPostInc m d x => obtain rfl := Host.Outcome.next.inj h; exact runLoadLocked_effect _ _ _ rfl
  | loadLockedRegPostDec m d x => obtain rfl := Host.Outcome.next.inj h; exact runLoadLocked_effect _ _ _ rfl
  | loadLockedRegPreInc m d x => obtain rfl := Host.Outcome.next.inj h; exact runLoadLocked_effect _ _ _ rfl
  | loadLockedRegPreDec m d x => obtain rfl := Host.Outcome.next.inj h; exact runLoadLocked_effect _ _ _ rfl
  | loadLockedIdx m d b x => obtain rfl := Host.Outcome.next.inj h; exact runLoadLocked_effect _ _ _ rfl
  | loadLockedIdxPostInc m d b x => obtain rfl := Host.Outcome.next.inj h; exact runLoadLocked_effect _ _ _ rfl
  | loadLockedIdxPostDec m d b x => obtain rfl := Host.Outcome.next.inj h; exact runLoadLocked_effect _ _ _ rfl
  | loadLockedIdxPreInc m d b x => obtain rfl := Host.Outcome.next.inj h; exact runLoadLocked_effect _ _ _ rfl
  | loadLockedIdxPreDec m d b x => obtain rfl := Host.Outcome.next.inj h; exact runLoadLocked_effect _ _ _ rfl
  | storeCondDisp m d b off => obtain rfl := Host.Outcome.next.inj h; exact runStoreConditional_effect _ _ _ rfl rfl
  | storeCondReg m d x => obtain rfl := Host.Outcome.next.inj h; exact runStoreConditional_effect _ _ _ rfl rfl
  | storeCondRegPostInc m d x => obtain rfl := Host.Outcome.next.inj h; exact runStoreConditional_effect _ _ _ rfl rfl
  | storeCondRegPostDec m d x => obtain rfl := Host.Outcome.next.inj h; exact runStoreConditional_effect _ _ _ rfl rfl
  | storeCondRegPreInc m d x => obtain rfl := Host.Outcome.next.inj h; exact runStoreConditional_effect _ _ _ rfl rfl
  | storeCondRegPreDec m d x => obtain rfl := Host.Outcome.next.inj h; exact runStoreConditional_effect _ _ _ rfl rfl
  | storeCondIdx m d b x => obtain rfl := Host.Outcome.next.inj h; exact runStoreConditional_effect _ _ _ rfl rfl
  | storeCondIdxPostInc m d b x => obtain rfl := Host.Outcome.next.inj h; exact runStoreConditional_effect _ _ _ rfl rfl
  | storeCondIdxPostDec m d b x => obtain rfl := Host.Outcome.next.inj h; exact runStoreConditional_effect _ _ _ rfl rfl
  | storeCondIdxPreInc m d b x => obtain rfl := Host.Outcome.next.inj h; exact runStoreConditional_effect _ _ _ rfl rfl
  | storeCondIdxPreDec m d b x => obtain rfl := Host.Outcome.next.inj h; exact runStoreConditional_effect _ _ _ rfl rfl
  | movRegReg m d x =>
    obtain rfl := Host.Outcome.next.inj h
    exact Effect.ofGuarded (fun h => nomatch h) fun _ => Effect.ofMoved (.gpr _ _ .none) rfl
  | movRegSpc m d x =>
    obtain rfl := Host.Outcome.next.inj h
    exact Effect.ofGuarded (fun h => nomatch h) fun _ => Effect.ofMoved (.gpr _ _ .none) rfl
  | movSpcReg m d x =>
    obtain rfl := Host.Outcome.next.inj h
    exact Effect.ofGuarded (fun h => nomatch h) fun hc => .special _ _ _ rfl hc
  | movRegDsp m d x =>
    obtain rfl := Host.Outcome.next.inj h
    exact Effect.ofGuarded (fun h => nomatch h) fun _ => Effect.ofMoved (.gpr _ _ .none) rfl
  | movDspReg m d x =>
    obtain rfl := Host.Outcome.next.inj h
    exact Effect.ofGuarded (fun h => nomatch h) fun _ => Effect.ofMoved (.dsp _ _ .none) rfl
  | movRegFpr m d x =>
    obtain rfl := Host.Outcome.next.inj h
    exact Effect.ofGuarded (fun h => nomatch h) fun _ => Effect.ofMoved (.gpr _ _ .none) rfl
  | movFprReg m d x =>
    obtain rfl := Host.Outcome.next.inj h
    exact Effect.ofGuarded (fun h => nomatch h) fun _ => Effect.ofMoved (.fpr _ _ .none) rfl
  | loadImm m u d imm =>
    obtain rfl := Host.Outcome.next.inj h
    exact Effect.ofGuarded (fun h => nomatch h) fun _ => Effect.ofMoved (.gpr _ _ .none) rfl
  | addReg m u d r => obtain rfl := Host.Outcome.next.inj h; exact runAdd_effect _ _ _ _ _ rfl
  | addImm m u d imm => obtain rfl := Host.Outcome.next.inj h; exact runAdd_effect _ _ _ _ _ rfl
  | subReg m u d r => obtain rfl := Host.Outcome.next.inj h; exact runSub_effect _ _ _ _ _ rfl
  | subImm m u d imm => obtain rfl := Host.Outcome.next.inj h; exact runSub_effect _ _ _ _ _ rfl
  | mulReg m u d r => obtain rfl := Host.Outcome.next.inj h; exact runMul_effect _ _ _ _ _ rfl
  | mulImm m u d imm => obtain rfl := Host.Outcome.next.inj h; exact runMul_effect _ _ _ _ _ rfl
  | divReg m u d r => obtain rfl := Host.Outcome.next.inj h; exact runDiv_effect _ _ _ _ _ rfl
  | divImm m u d imm => obtain rfl := Host.Outcome.next.inj h; exact runDiv_effect _ _ _ _ _ rfl
  | slReg m u d r => obtain rfl := Host.Outcome.next.inj h; exact runLogic_effect _ _ _ _ _ _ _ rfl
  | slImm m u d imm => obtain rfl := Host.Outcome.next.inj h; exact runLogic_effect _ _ _ _ _ _ _ rfl
  | srReg m u d r => obtain rfl := Host.Outcome.next.inj h; exact runLogic_effect _ _ _ _ _ _ _ rfl
  | srImm m u d imm => obtain rfl := Host.Outcome.next.inj h; exact runLogic_effect _ _ _ _ _ _ _ rfl
  | andReg m u d r => obtain rfl := Host.Outcome.next.inj h; exact runLogic_effect _ _ _ _ _ _ _ rfl
  | andImm m u d imm => obtain rfl := Host.Outcome.next.inj h; exact runLogic_effect _ _ _ _ _ _ _ rfl
  | nandReg m u d r => obtain rfl := Host.Outcome.next.inj h; exact runLogic_effect _ _ _ _ _ _ _ rfl
  | nandImm m u d imm => obtain rfl := Host.Outcome.next.inj h; exact runLogic_effect _ _ _ _ _ _ _ rfl
  | orReg m u d r => obtain rfl := Host.Outcome.next.inj h; exact runLogic_effect _ _ _ _ _ _ _ rfl
  | orImm m u d imm => obtain rfl := Host.Outcome.next.inj h; exact runLogic_effect _ _ _ _ _ _ _ rfl
  | xorReg m u d r => obtain rfl := Host.Outcome.next.inj h; exact runLogic_effect _ _ _ _ _ _ _ rfl
  | xorImm m u d imm => obtain rfl := Host.Outcome.next.inj h; exact runLogic_effect _ _ _ _ _ _ _ rfl
  | rlReg m d r => obtain rfl := Host.Outcome.next.inj h; exact runLogic_effect _ _ _ _ _ _ _ rfl
  | rlImm m d imm => obtain rfl := Host.Outcome.next.inj h; exact runLogic_effect _ _ _ _ _ _ _ rfl
  | rrReg m d r => obtain rfl := Host.Outcome.next.inj h; exact runLogic_effect _ _ _ _ _ _ _ rfl
  | rrImm m d imm => obtain rfl := Host.Outcome.next.inj h; exact runLogic_effect _ _ _ _ _ _ _ rfl
  | sbReg m d r => obtain rfl := Host.Outcome.next.inj h; exact runBit_effect _ _ _ _ _ _ rfl
  | sbImm m d imm => obtain rfl := Host.Outcome.next.inj h; exact runBit_effect _ _ _ _ _ _ rfl
  | rbReg m d r => obtain rfl := Host.Outcome.next.inj h; exact runBit_effect _ _ _ _ _ _ rfl
  | rbImm m d imm => obtain rfl := Host.Outcome.next.inj h; exact runBit_effect _ _ _ _ _ _ rfl
  | tbReg m d r => obtain rfl := Host.Outcome.next.inj h; exact runBit_effect _ _ _ _ _ _ rfl
  | tbImm m d imm => obtain rfl := Host.Outcome.next.inj h; exact runBit_effect _ _ _ _ _ _ rfl
  | rvbReg m d r => obtain rfl := Host.Outcome.next.inj h; exact runBit_effect _ _ _ _ _ _ rfl
  | rvbImm m d imm => obtain rfl := Host.Outcome.next.inj h; exact runBit_effect _ _ _ _ _ _ rfl
  | madReg m u d r t => obtain rfl := Host.Outcome.next.inj h; exact runMad_effect _ _ _ _ _ _ rfl
  | madImm m u d r imm => obtain rfl := Host.Outcome.next.inj h; exact runMad_effect _ _ _ _ _ _ rfl
  | msuReg m u d r t => obtain rfl := Host.Outcome.next.inj h; exact runMsu_effect _ _ _ _ _ _ rfl
  | msuImm m u d r imm => obtain rfl := Host.Outcome.next.inj h; exact runMsu_effect _ _ _ _ _ _ rfl
  | fadd d r => obtain rfl := Host.Outcome.next.inj h; exact guardedFp_effect _ _ _ rfl
  | fsub d r => obtain rfl := Host.Outcome.next.inj h; exact guardedFp_effect _ _ _ rfl
  | fmul d r => obtain rfl := Host.Outcome.next.inj h; exact guardedFp_effect _ _ _ rfl
  | fdiv d r => obtain rfl := Host.Outcome.next.inj h; exact guardedFp_effect _ _ _ rfl
  | frem d r => obtain rfl := Host.Outcome.next.inj h; exact guardedFp_effect _ _ _ rfl
  | fcmp d r => obtain rfl := Host.Outcome.next.inj h; exact execFcmp_effect _ _ rfl
  | fsqr d => obtain rfl := Host.Outcome.next.inj h; exact guardedFp_effect _ _ _ rfl
  | fabs d => obtain rfl := Host.Outcome.next.inj h; exact guardedFp_effect _ _ _ rfl
  | fneg d => obtain rfl := Host.Outcome.next.inj h; exact guardedFp_effect _ _ _ rfl
  | frnd d => obtain rfl := Host.Outcome.next.inj h; exact guardedFp_effect _ _ _ rfl
  | ff2i m u d => obtain rfl := Host.Outcome.next.inj h; exact runFf2i_effect _ _ _ rfl
  | fi2f m u d => obtain rfl := Host.Outcome.next.inj h; exact guardedFp_effect _ _ _ rfl
  | fextH d => obtain rfl := Host.Outcome.next.inj h; exact guardedFp_effect _ _ _ rfl
  | fextW d => obtain rfl := Host.Outcome.next.inj h; exact guardedFp_effect _ _ _ rfl
  | fextD d => obtain rfl := Host.Outcome.next.inj h; exact guardedFp_effect _ _ _ rfl
  | fextQ d => obtain rfl := Host.Outcome.next.inj h; exact guardedFp_effect _ _ _ rfl
  | fext1 d => obtain rfl := Host.Outcome.next.inj h; exact guardedFp_effect _ _ _ rfl
  | fsqzH d => obtain rfl := Host.Outcome.next.inj h; exact guardedFp_effect _ _ _ rfl
  | fsqzW d => obtain rfl := Host.Outcome.next.inj h; exact guardedFp_effect _ _ _ rfl
  | fsqzD d => obtain rfl := Host.Outcome.next.inj h; exact guardedFp_effect _ _ _ rfl
  | fsqzQ d => obtain rfl := Host.Outcome.next.inj h; exact guardedFp_effect _ _ _ rfl
  | fsqz1 d => obtain rfl := Host.Outcome.next.inj h; exact guardedFp_effect _ _ _ rfl
  | fmad d r t => obtain rfl := Host.Outcome.next.inj h; exact guardedFp_effect _ _ _ rfl
  | fmsu d r t => obtain rfl := Host.Outcome.next.inj h; exact guardedFp_effect _ _ _ rfl
  | jmpReg a p l => obtain rfl := Host.Outcome.next.inj h; exact runJump_effect _ _ _ _ ⟨_, rfl⟩ rfl
  | jmpOff a p off => obtain rfl := Host.Outcome.next.inj h; exact runJump_effect _ _ _ _ ⟨_, rfl⟩ rfl
  | bzReg m a p g l => obtain rfl := Host.Outcome.next.inj h; exact runBranch_effect _ _ _ _ _ _ ⟨_, rfl⟩ rfl
  | bzOff m a p g off => obtain rfl := Host.Outcome.next.inj h; exact runBranch_effect _ _ _ _ _ _ ⟨_, rfl⟩ rfl
  | bnzReg m a p g l => obtain rfl := Host.Outcome.next.inj h; exact runBranch_effect _ _ _ _ _ _ ⟨_, rfl⟩ rfl
  | bnzOff m a p g off => obtain rfl := Host.Outcome.next.inj h; exact runBranch_effect _ _ _ _ _ _ ⟨_, rfl⟩ rfl
  | bmReg m a p g l => obtain rfl := Host.Outcome.next.inj h; exact runBranch_effect _ _ _ _ _ _ ⟨_, rfl⟩ rfl
  | bmOff m a p g off => obtain rfl := Host.Outcome.next.inj h; exact runBranch_effect _ _ _ _ _ _ ⟨_, rfl⟩ rfl
  | bmzReg m a p g l => obtain rfl := Host.Outcome.next.inj h; exact runBranch_effect _ _ _ _ _ _ ⟨_, rfl⟩ rfl
  | bmzOff m a p g off => obtain rfl := Host.Outcome.next.inj h; exact runBranch_effect _ _ _ _ _ _ ⟨_, rfl⟩ rfl
  | bnmReg m a p g l => obtain rfl := Host.Outcome.next.inj h; exact runBranch_effect _ _ _ _ _ _ ⟨_, rfl⟩ rfl
  | bnmOff m a p g off => obtain rfl := Host.Outcome.next.inj h; exact runBranch_effect _ _ _ _ _ _ ⟨_, rfl⟩ rfl
  | bnmoReg m a p g l => obtain rfl := Host.Outcome.next.inj h; exact runBranch_effect _ _ _ _ _ _ ⟨_, rfl⟩ rfl
  | bnmoOff m a p g off => obtain rfl := Host.Outcome.next.inj h; exact runBranch_effect _ _ _ _ _ _ ⟨_, rfl⟩ rfl
  | blReg m a p g l => obtain rfl := Host.Outcome.next.inj h; exact runBranch_effect _ _ _ _ _ _ ⟨_, rfl⟩ rfl
  | blOff m a p g off => obtain rfl := Host.Outcome.next.inj h; exact runBranch_effect _ _ _ _ _ _ ⟨_, rfl⟩ rfl
  | blzReg m a p g l => obtain rfl := Host.Outcome.next.inj h; exact runBranch_effect _ _ _ _ _ _ ⟨_, rfl⟩ rfl
  | blzOff m a p g off => obtain rfl := Host.Outcome.next.inj h; exact runBranch_effect _ _ _ _ _ _ ⟨_, rfl⟩ rfl
  | bnlReg m a p g l => obtain rfl := Host.Outcome.next.inj h; exact runBranch_effect _ _ _ _ _ _ ⟨_, rfl⟩ rfl
  | bnlOff m a p g off => obtain rfl := Host.Outcome.next.inj h; exact runBranch_effect _ _ _ _ _ _ ⟨_, rfl⟩ rfl
  | bnloReg m a p g l => obtain rfl := Host.Outcome.next.inj h; exact runBranch_effect _ _ _ _ _ _ ⟨_, rfl⟩ rfl
  | bnloOff m a p g off => obtain rfl := Host.Outcome.next.inj h; exact runBranch_effect _ _ _ _ _ _ ⟨_, rfl⟩ rfl
  | boReg m a p g l => obtain rfl := Host.Outcome.next.inj h; exact runBranch_effect _ _ _ _ _ _ ⟨_, rfl⟩ rfl
  | boOff m a p g off => obtain rfl := Host.Outcome.next.inj h; exact runBranch_effect _ _ _ _ _ _ ⟨_, rfl⟩ rfl
  | bnoReg m a p g l => obtain rfl := Host.Outcome.next.inj h; exact runBranch_effect _ _ _ _ _ _ ⟨_, rfl⟩ rfl
  | bnoOff m a p g off => obtain rfl := Host.Outcome.next.inj h; exact runBranch_effect _ _ _ _ _ _ ⟨_, rfl⟩ rfl
  | ret p => obtain rfl := Host.Outcome.next.inj h; exact Effect.ofGuarded (fun h => nomatch h) fun _ => .returned _ rfl
  | reti p =>
    obtain rfl := Host.Outcome.next.inj h
    exact Effect.ofGuarded (fun h => nomatch h) fun _ => .leftInterrupt _ rfl
  | rete p =>
    obtain rfl := Host.Outcome.next.inj h
    exact Effect.ofGuarded (fun h => nomatch h)
      fun hc => .leftException _ rfl (by simpa using (firstHit_none _).1 hc _ List.mem_cons_self)
  | retn p =>
    obtain rfl := Host.Outcome.next.inj h
    exact Effect.ofGuarded (fun h => nomatch h)
      fun hc => .leftNmi _ rfl (by simpa using (firstHit_none _).1 hc _ List.mem_cons_self)
  | waitReg l => obtain rfl := Host.Outcome.next.inj h; exact runWait_effect _ _ rfl
  | waitImm n => obtain rfl := Host.Outcome.next.inj h; exact runWait_effect _ _ rfl

end Sys2Proof.Machine
end

