-- ==== Sys2Proof/Laws/Memory.lean ====
section
/-! SUPPORT. Memory: a write is read back, leaves every other byte alone, and keeps the canonical form and the bound of
the addresses (R83 to R85). -/
namespace Sys2Proof.Machine

/-- Every address listed is above `a`. -/
def Memory.above (a : Nat) (m : Memory) : Prop := ∀ c ∈ m, a < c.1

/-- The canonical form of a list that starts with a cell. -/
theorem Memory.wf_cons (k : Nat) (v : Byte) (t : Memory) :
    Memory.wf ((k, v) :: t) = true ↔ v ≠ unlistedByte ∧ Memory.above k t ∧ Memory.wf t = true := by
  induction t generalizing k v with
  | nil => simp [Memory.wf, Memory.above]
  | cons c t ih =>
    obtain ⟨k', v'⟩ := c
    simp only [Memory.wf, Bool.and_eq_true, decide_eq_true_eq]
    constructor
    · rintro ⟨⟨hk, hv⟩, ht⟩
      refine ⟨hv, ?_, ht⟩
      intro c hc
      rcases List.mem_cons.1 hc with rfl | hc
      · exact hk
      · exact lt_trans hk (((ih k' v').1 ht).2.1 c hc)
    · rintro ⟨hv, ha, ht⟩
      exact ⟨⟨ha _ List.mem_cons_self, hv⟩, ht⟩

theorem Memory.wf_nil : Memory.wf [] = true := rfl

/-- What is listed after a write: the byte written, or what was listed before. -/
theorem Memory.mem_setByte (m : Memory) (a : Nat) (v : Byte) (c : Host.Cell) (h : c ∈ Memory.setByte m a v) :
    c = (a, v) ∨ c ∈ m := by
  induction m with
  | nil =>
    simp only [Memory.setByte] at h
    split at h <;> simp_all
  | cons x t ih =>
    obtain ⟨k, x⟩ := x
    simp only [Memory.setByte] at h
    split at h
    · split at h <;> simp_all
    · split at h
      · split at h
        · exact .inr (List.mem_cons_of_mem _ h)
        · rcases List.mem_cons.1 h with rfl | h
          · exact .inl rfl
          · exact .inr (List.mem_cons_of_mem _ h)
      · rcases List.mem_cons.1 h with rfl | h
        · exact .inr List.mem_cons_self
        · rcases ih h with h | h
          · exact .inl h
          · exact .inr (List.mem_cons_of_mem _ h)

/-- A write keeps the canonical form. -/
theorem Memory.setByte_wf (m : Memory) (a : Nat) (v : Byte) (h : Memory.wf m = true) :
    Memory.wf (Memory.setByte m a v) = true := by
  induction m with
  | nil =>
    simp only [Memory.setByte]
    split
    · rfl
    · rename_i hv
      exact (Memory.wf_cons a v []).2 ⟨hv, by simp [Memory.above], rfl⟩
  | cons c t ih =>
    obtain ⟨k, x⟩ := c
    obtain ⟨hx, habove, ht⟩ := (Memory.wf_cons k x t).1 h
    simp only [Memory.setByte]
    split
    · rename_i hak
      split
      · exact h
      · rename_i hv
        refine (Memory.wf_cons _ _ _).2 ⟨hv, ?_, h⟩
        intro c hc
        rcases List.mem_cons.1 hc with rfl | hc
        · exact hak
        · exact lt_trans hak (habove c hc)
    · split
      · rename_i heq
        subst heq
        split
        · exact ht
        · rename_i hv
          exact (Memory.wf_cons _ _ _).2 ⟨hv, habove, ht⟩
      · refine (Memory.wf_cons _ _ _).2 ⟨hx, ?_, ih ht⟩
        intro c hc
        rcases Memory.mem_setByte t a v c hc with rfl | hc
        · simp only
          omega
        · exact habove c hc

/-- A write within the bound keeps the bound. -/
theorem Memory.setByte_below (bound : Nat) (m : Memory) (a : Nat) (v : Byte) (h : Memory.below bound m = true)
    (ha : a < bound) : Memory.below bound (Memory.setByte m a v) = true := by
  simp only [Memory.below, List.all_eq_true, decide_eq_true_eq] at h ⊢
  intro c hc
  rcases Memory.mem_setByte m a v c hc with rfl | hc
  · exact ha
  · exact h c hc

/-- A byte written is read back. -/
theorem Memory.byteAt_setByte_same (m : Memory) (a : Nat) (v : Byte) (h : Memory.wf m = true) :
    Memory.byteAt (Memory.setByte m a v) a = v := by
  have absent : ∀ t : Memory, Memory.above a t → Memory.byteAt t a = unlistedByte := by
    intro t ht
    induction t with
    | nil => rfl
    | cons c t ih =>
      obtain ⟨k, x⟩ := c
      have hk : a < k := ht _ List.mem_cons_self
      rw [Memory.byteAt, if_neg (by omega)]
      exact ih fun c hc => ht c (List.mem_cons_of_mem _ hc)
  induction m with
  | nil =>
    simp only [Memory.setByte]
    split
    · rename_i hv
      simp [Memory.byteAt, hv]
    · simp [Memory.byteAt]
  | cons c t ih =>
    obtain ⟨k, x⟩ := c
    obtain ⟨-, habove, ht⟩ := (Memory.wf_cons k x t).1 h
    simp only [Memory.setByte]
    split
    · rename_i hak
      split
      · rename_i hv
        rw [hv]
        refine absent _ ?_
        intro c hc
        rcases List.mem_cons.1 hc with rfl | hc
        · exact hak
        · exact lt_trans hak (habove c hc)
      · simp [Memory.byteAt]
    · split
      · rename_i heq
        split
        · rename_i hv
          rw [hv]
          subst heq
          exact absent t habove
        · simp [Memory.byteAt]
      · rename_i hne
        rw [Memory.byteAt, if_neg (Ne.symm hne)]
        exact ih ht

/-- A write leaves every other byte alone. -/
theorem Memory.byteAt_setByte_other (m : Memory) (a b : Nat) (v : Byte) (h : b ≠ a) :
    Memory.byteAt (Memory.setByte m a v) b = Memory.byteAt m b := by
  induction m with
  | nil =>
    simp only [Memory.setByte]
    split
    · rfl
    · simp [Memory.byteAt, Ne.symm h]
  | cons c t ih =>
    obtain ⟨k, x⟩ := c
    simp only [Memory.setByte]
    split
    · split
      · rfl
      · rw [Memory.byteAt, if_neg (Ne.symm h)]
    · split
      · rename_i heq
        subst heq
        split
        · rw [Memory.byteAt, if_neg (Ne.symm h)]
        · rw [Memory.byteAt, Memory.byteAt, if_neg (Ne.symm h), if_neg (Ne.symm h)]
      · by_cases hk : k = b
        · simp [Memory.byteAt, hk]
        · rw [Memory.byteAt, Memory.byteAt, if_neg hk, if_neg hk]
          exact ih

/-- The address space is not empty. -/
theorem addressSpace_pos (c : Config) : 0 < addressSpace c := Nat.pow_pos (by omega)

/-- A wide write keeps the canonical form. -/
theorem Memory.writeBytes_wf (c : Config) (m : Memory) (addr n v k : Nat) (h : Memory.wf m = true) :
    Memory.wf (Memory.writeBytes c m addr n v k) = true := by
  induction k with
  | zero => exact h
  | succ k ih => exact Memory.setByte_wf _ _ _ ih

/-- A wide write lists addresses of the address space only. -/
theorem Memory.writeBytes_below (c : Config) (m : Memory) (addr n v k : Nat)
    (h : Memory.below (addressSpace c) m = true) :
    Memory.below (addressSpace c) (Memory.writeBytes c m addr n v k) = true := by
  induction k with
  | zero => exact h
  | succ k ih => exact Memory.setByte_below _ _ _ _ ih (Nat.mod_lt _ (addressSpace_pos c))

/-- A wide write leaves a byte outside it alone. -/
theorem Memory.byteAt_writeBytes_other (c : Config) (m : Memory) (addr n v k a : Nat)
    (h : ∀ i, i < k → (addr + i) % addressSpace c ≠ a) :
    Memory.byteAt (Memory.writeBytes c m addr n v k) a = Memory.byteAt m a := by
  induction k with
  | zero => rfl
  | succ k ih =>
    rw [Memory.writeBytes, Memory.byteAt_setByte_other _ _ _ _ (Ne.symm (h k (by omega)))]
    exact ih fun i hi => h i (by omega)

/-- The state's memory stays canonical over a memory write. -/
theorem State.memWrite_wf (s : State) (addr n v : Nat) (h : Memory.wf s.mem = true) :
    Memory.wf (s.memWrite addr n v).mem = true := Memory.writeBytes_wf _ _ _ _ _ _ h

/-- The bytes of an access, as a list of addresses. -/
theorem inBytes_iff (c : Config) (addr n a : Nat) :
    inBytes c addr n a = true ↔ ∃ i, i < n ∧ (addr + i) % addressSpace c = a := by
  simp [inBytes, List.any_eq_true]

/-- The state after reset has memory in its canonical form. -/
theorem State.reset_mem_wf : Memory.wf State.reset.mem = true := rfl

/-- An event keeps the canonical form. -/
theorem State.receive_wf (s : State) (e : Event) (h : Memory.wf s.mem = true) :
    Memory.wf (s.receive e).mem = true := by
  cases e with
  | agentWrite a v => exact Memory.setByte_wf _ _ _ h
  | dspException k => simp only [State.receive]; split <;> exact h
  | _ => exact h

end Sys2Proof.Machine
end

