-- ==== Sys2Proof/Tests/Slice0.lean ====
section
/-! SUPPORT. Tests. Expected values come from the spec: the opcode table's encodings, `spec/96_derived_vectors.md` (a
test whose name ends in `_v<n>` is its vector V<n>), or a calculation by hand from the rules named. The witnesses at
the end show that the hypotheses of the obligations can be met. -/
namespace Sys2Proof.Tests
open Sys2Proof.Machine

set_option maxRecDepth 100000
set_option exponentiation.threshold 2000

/-- Every word decodes to its instruction. -/
def reads (l : List (Nat × Instr)) : Bool := l.all fun p => decide (decodeTableWord 32 p.1 = some p.2)

/-- No term of the list is well-formed. -/
def refusesAll (l : List Instr) : Bool := l.all fun i => !i.wellFormed

/-- The start state of the vectors, with some GPRs set. -/
def start (l : List (Nat × Nat)) : State :=
  { State.reset with
    ic := 5, banks := [l.foldl (fun f p => f.set p.1 (BitVec.ofNat 1024 p.2)) State.reset.gpr] }

/-- Values placed in memory: address, bytes, value. -/
def poke (l : List (Nat × Nat × Nat)) (s : State) : State := l.foldl (fun s p => s.memWrite p.1 p.2.1 p.2.2) s

/-- The next state of a result; the reset state where there is none (its IC, 0, shows it). -/
def after (r : Result) : State :=
  match r with
  | .next t => t
  | _ => State.reset

/-- One step with a word placed at IC. -/
def run (w : Nat) (s : State) : State := after (step (s.memWrite s.fetchAddress 4 w))

/-- A GPR. -/
def reg (s : State) (n : Nat) : Nat := (s.gpr.getD n 0).toNat

/-- An implementation with 256-bit GPRs, a DSP file and an FPR file, and the widest FP format. -/
def wide : State :=
  { State.reset with
    ic := 5
    cfg := { Config.reference with
      gprWidth := 256, numGpr := 4, numBanks := 2, topMode := .sent, maxTransfer := .sent, fp := ⟨19, 236⟩,
      fpFormats := [.half, .word, .dword, .quad, .sent], fpuType := 5, hasFpr := true, fprWidth := 256, numFpr := 4,
      hasDsp := true, dspMode := .word, numDsp := 4 }
    banks := [[0x11, 0x2222222211111111, 2, 3], [4, 5, 6, 7]]
    dsp := [0, 0, 0, 0]
    fpr := [0x3FFFF#1024 <<< 236, 0x3FF8000000000000#1024, 0xC0000000000000000000000000000000#1024, 5] }

/-! ### Encoding -/

theorem test_decode_loads :
  reads [
    (0xCCB6D5B2, .loadDisp .half 45 22 0xB72), (0xE0B43FF3, .loadReg .quad 45 51),
    (0xF8B47FF3, .loadRegPostInc .qsent 45 51), (0xD0B4BFF3, .loadRegPostDec .word 45 51),
    (0xE8B57FF3, .loadRegPreInc .sent 45 51), (0xC0B5BFF3, .loadRegPreDec .byte 45 51),
    (0xD8B635B3, .loadIdx .dword 45 22 51), (0xF0B675B3, .loadIdxPostInc .dsent 45 22 51),
    (0xC8B6B5B3, .loadIdxPostDec .half 45 22 51), (0xE0B775B3, .loadIdxPreInc .quad 45 22 51),
    (0xF8B7B5B3, .loadIdxPreDec .qsent 45 22 51)] = true := by
  decide

theorem test_decode_stores :
  reads [
    (0x94B6D5B2, .storeDisp .word 45 22 0xB72), (0xA8B43FF3, .storeReg .sent 45 51),
    (0x80B47FF3, .storeRegPostInc .byte 45 51), (0x98B4BFF3, .storeRegPostDec .dword 45 51),
    (0xB0B57FF3, .storeRegPreInc .dsent 45 51), (0x88B5BFF3, .storeRegPreDec .half 45 51),
    (0xA0B635B3, .storeIdx .quad 45 22 51), (0xB8B675B3, .storeIdxPostInc .qsent 45 22 51),
    (0x90B6B5B3, .storeIdxPostDec .word 45 22 51), (0xA8B775B3, .storeIdxPreInc .sent 45 22 51),
    (0x80B7B5B3, .storeIdxPreDec .byte 45 22 51)] = true := by
  decide

theorem test_decode_load_lockeds :
  reads [
    (0xDEB6D5B2, .loadLockedDisp .dword 45 22 0xB72), (0xF2B43FF3, .loadLockedReg .dsent 45 51),
    (0xCAB47FF3, .loadLockedRegPostInc .half 45 51), (0xE2B4BFF3, .loadLockedRegPostDec .quad 45 51),
    (0xFAB57FF3, .loadLockedRegPreInc .qsent 45 51), (0xD2B5BFF3, .loadLockedRegPreDec .word 45 51),
    (0xEAB635B3, .loadLockedIdx .sent 45 22 51), (0xC2B675B3, .loadLockedIdxPostInc .byte 45 22 51),
    (0xDAB6B5B3, .loadLockedIdxPostDec .dword 45 22 51), (0xF2B775B3, .loadLockedIdxPreInc .dsent 45 22 51),
    (0xCAB7B5B3, .loadLockedIdxPreDec .half 45 22 51)] = true := by
  decide

theorem test_decode_store_conditionals :
  reads [
    (0xA6B6D5B2, .storeCondDisp .quad 45 22 0xB72), (0xBAB43FF3, .storeCondReg .qsent 45 51),
    (0x92B47FF3, .storeCondRegPostInc .word 45 51), (0xAAB4BFF3, .storeCondRegPostDec .sent 45 51),
    (0x82B57FF3, .storeCondRegPreInc .byte 45 51), (0x9AB5BFF3, .storeCondRegPreDec .dword 45 51),
    (0xB2B635B3, .storeCondIdx .dsent 45 22 51), (0x8AB675B3, .storeCondIdxPostInc .half 45 22 51),
    (0xA2B6B5B3, .storeCondIdxPostDec .quad 45 22 51), (0xBAB775B3, .storeCondIdxPreInc .qsent 45 22 51),
    (0x92B7B5B3, .storeCondIdxPreDec .word 45 22 51)] = true := by
  decide

theorem test_decode_register_transfers :
  reads [
    (0xE9B43FF3, .movRegReg .sent 45 51), (0xC1B47FF3, .movRegSpc .byte 45 51),
    (0xD9B4BFF3, .movSpcReg .dword 45 51), (0xF1B4FFF3, .movRegDsp .dsent 45 51),
    (0xC9B53FF3, .movDspReg .half 45 51), (0xE1B7BFF3, .movRegFpr .quad 45 51),
    (0xF9B7FFF3, .movFprReg .qsent 45 51), (0xD7B6DCB5, .loadImm .word true 45 0x2DCB5)] = true := by
  decide

theorem test_decode_arithmetic :
  reads [
    (0x28B436BF, .addReg .sent false 45 26), (0x06B42DCB, .addImm .byte true 45 0x2DCB),
    (0x18B476BF, .subReg .dword false 45 26), (0x36B46DCB, .subImm .dsent true 45 0x2DCB),
    (0x08B4B6BF, .mulReg .half false 45 26), (0x26B4ADCB, .mulImm .quad true 45 0x2DCB),
    (0x38B4F6BF, .divReg .qsent false 45 26), (0x16B4EDCB, .divImm .word true 45 0x2DCB)] = true := by
  decide

theorem test_decode_shifts_and_logic :
  reads [
    (0x28B536BF, .slReg .sent false 45 26), (0x06B52DCB, .slImm .byte true 45 0x2DCB),
    (0x18B576BF, .srReg .dword false 45 26), (0x36B56DCB, .srImm .dsent true 45 0x2DCB),
    (0x08B5F6BF, .andReg .half false 45 26), (0x26B5EDCB, .andImm .quad true 45 0x2DCB),
    (0x38B636BF, .nandReg .qsent false 45 26), (0x16B62DCB, .nandImm .word true 45 0x2DCB),
    (0x28B676BF, .orReg .sent false 45 26), (0x06B66DCB, .orImm .byte true 45 0x2DCB),
    (0x18B6B6BF, .xorReg .dword false 45 26), (0x36B6ADCB, .xorImm .dsent true 45 0x2DCB)] = true := by
  decide

theorem test_decode_rotates_and_bits :
  reads [
    (0x08B5B6BF, .rlReg .half 45 26), (0x24B5ADCB, .rlImm .quad 45 0x2DCB), (0x3AB5B6BF, .rrReg .qsent 45 26),
    (0x16B5ADCB, .rrImm .word 45 0x2DCB), (0x28B6F6BF, .sbReg .sent 45 26), (0x04B6EDCB, .sbImm .byte 45 0x2DCB),
    (0x1AB6F6BF, .rbReg .dword 45 26), (0x36B6EDCB, .rbImm .dsent 45 0x2DCB), (0x08B736BF, .tbReg .half 45 26),
    (0x24B72DCB, .tbImm .quad 45 0x2DCB), (0x3AB736BF, .rvbReg .qsent 45 26), (0x16B72DCB, .rvbImm .word 45 0x2DCB)] = true := by
  decide

theorem test_decode_fused :
  reads [
    (0x28B7B6A7, .madReg .sent false 45 26 39), (0x06B7A6B7, .madImm .byte true 45 26 0xB7),
    (0x18B7F6A7, .msuReg .dword false 45 26 39), (0x36B7E6B7, .msuImm .dsent true 45 26 0xB7)] = true := by
  decide

theorem test_decode_floating_point :
  reads [
    (0x01B436BF, .fadd 45 26), (0x01B476BF, .fsub 45 26), (0x01B4B6BF, .fmul 45 26), (0x01B4F6BF, .fdiv 45 26),
    (0x01B536BF, .frem 45 26), (0x01B576BF, .fcmp 45 26), (0x01B5BFFF, .fsqr 45), (0x01B5FFFF, .fabs 45),
    (0x01B63FFF, .fneg 45), (0x01B67FFF, .frnd 45)] = true := by
  decide

theorem test_decode_conversions :
  reads [
    (0x39B6BFFF, .ff2i .qsent false 45), (0x13B6FFFF, .fi2f .word true 45), (0x09B73FFF, .fextH 45),
    (0x11B73FFF, .fextW 45), (0x19B73FFF, .fextD 45), (0x21B73FFF, .fextQ 45), (0x29B73FFF, .fext1 45),
    (0x09B77FFF, .fsqzH 45), (0x11B77FFF, .fsqzW 45), (0x19B77FFF, .fsqzD 45), (0x21B77FFF, .fsqzQ 45),
    (0x29B77FFF, .fsqz1 45), (0x01B7B6A7, .fmad 45 26 39), (0x01B7F6A7, .fmsu 45 26 39)] = true := by
  decide

theorem test_decode_jumps_and_branches :
  reads [
    (0x40FC377F, .jmpReg false false 29), (0x44B432D6, .jmpOff false false 0xB72D6),
    (0x7AA4777F, .bzReg .qsent true false 41 29), (0x56A46DCB, .bzOff .word true false 41 0x2DCB),
    (0x69A4B77F, .bnzReg .sent false true 41 29), (0x45A4ADCB, .bnzOff .byte false true 41 0x2DCB),
    (0x5BA4F77F, .bmReg .dword true true 41 29), (0x77A4EDCB, .bmOff .dsent true true 41 0x2DCB),
    (0x48A5377F, .bmzReg .half false false 41 29), (0x64A52DCB, .bmzOff .quad false false 41 0x2DCB),
    (0x7AA5777F, .bnmReg .qsent true false 41 29), (0x56A56DCB, .bnmOff .word true false 41 0x2DCB)] = true := by
  decide

theorem test_decode_more_branches :
  reads [
    (0x69A5B77F, .bnmoReg .sent false true 41 29), (0x45A5ADCB, .bnmoOff .byte false true 41 0x2DCB),
    (0x5BA5F77F, .blReg .dword true true 41 29), (0x77A5EDCB, .blOff .dsent true true 41 0x2DCB),
    (0x48A6377F, .blzReg .half false false 41 29), (0x64A62DCB, .blzOff .quad false false 41 0x2DCB),
    (0x7AA6777F, .bnlReg .qsent true false 41 29), (0x56A66DCB, .bnlOff .word true false 41 0x2DCB),
    (0x69A6B77F, .bnloReg .sent false true 41 29), (0x45A6ADCB, .bnloOff .byte false true 41 0x2DCB),
    (0x5BA6F77F, .boReg .dword true true 41 29), (0x77A6EDCB, .boOff .dsent true true 41 0x2DCB),
    (0x48A7377F, .bnoReg .half false false 41 29), (0x64A72DCB, .bnoOff .quad false false 41 0x2DCB)] = true := by
  decide

theorem test_decode_returns_and_waits :
  reads [
    (0x40FF7FFF, .ret false), (0x48FF7FFF, .reti false), (0x51FF7FFF, .rete true), (0x59FF7FFF, .retn true),
    (0x40FFB77F, .waitReg 29), (0x44B7B2D6, .waitImm 0xB72D6)] = true := by
  decide

theorem test_invalid_words :
    (decodeTableWord 32 0x00034000, decodeTableWord 32 0x05000000, decodeTableWord 32 0x5103C000) = (none, none, none) := by
  decide

theorem test_wellFormed_refuses_1 :
  refusesAll [
    .loadDisp .byte 64 63 0, .loadDisp .byte 63 64 0, .loadReg .byte 64 63, .loadReg .byte 63 64,
    .loadRegPostInc .byte 64 63, .loadRegPostInc .byte 63 64, .loadRegPostDec .byte 64 63,
    .loadRegPostDec .byte 63 64, .loadRegPreInc .byte 64 63, .loadRegPreInc .byte 63 64, .loadRegPreDec .byte 64 63,
    .loadRegPreDec .byte 63 64, .loadIdx .byte 64 63 63, .loadIdx .byte 63 64 63, .loadIdx .byte 63 63 64,
    .loadIdxPostInc .byte 64 63 63, .loadIdxPostInc .byte 63 64 63, .loadIdxPostInc .byte 63 63 64,
    .loadIdxPostDec .byte 64 63 63, .loadIdxPostDec .byte 63 64 63, .loadIdxPostDec .byte 63 63 64,
    .loadIdxPreInc .byte 64 63 63, .loadIdxPreInc .byte 63 64 63, .loadIdxPreInc .byte 63 63 64,
    .loadIdxPreDec .byte 64 63 63, .loadIdxPreDec .byte 63 64 63, .loadIdxPreDec .byte 63 63 64,
    .storeDisp .byte 64 63 0, .storeDisp .byte 63 64 0, .storeReg .byte 64 63, .storeReg .byte 63 64,
    .storeRegPostInc .byte 64 63, .storeRegPostInc .byte 63 64, .storeRegPostDec .byte 64 63,
    .storeRegPostDec .byte 63 64, .storeRegPreInc .byte 64 63, .storeRegPreInc .byte 63 64,
    .storeRegPreDec .byte 64 63, .storeRegPreDec .byte 63 64, .storeIdx .byte 64 63 63, .storeIdx .byte 63 64 63,
    .storeIdx .byte 63 63 64, .storeIdxPostInc .byte 64 63 63, .storeIdxPostInc .byte 63 64 63,
    .storeIdxPostInc .byte 63 63 64, .storeIdxPostDec .byte 64 63 63, .storeIdxPostDec .byte 63 64 63,
    .storeIdxPostDec .byte 63 63 64, .storeIdxPreInc .byte 64 63 63, .storeIdxPreInc .byte 63 64 63,
    .storeIdxPreInc .byte 63 63 64, .storeIdxPreDec .byte 64 63 63, .storeIdxPreDec .byte 63 64 63,
    .storeIdxPreDec .byte 63 63 64, .loadLockedDisp .byte 64 63 0, .loadLockedDisp .byte 63 64 0,
    .loadLockedReg .byte 64 63, .loadLockedReg .byte 63 64, .loadLockedRegPostInc .byte 64 63,
    .loadLockedRegPostInc .byte 63 64, .loadLockedRegPostDec .byte 64 63, .loadLockedRegPostDec .byte 63 64,
    .loadLockedRegPreInc .byte 64 63, .loadLockedRegPreInc .byte 63 64] = true := by
  decide

theorem test_wellFormed_refuses_2 :
  refusesAll [
    .loadLockedRegPreDec .byte 64 63, .loadLockedRegPreDec .byte 63 64, .loadLockedIdx .byte 64 63 63,
    .loadLockedIdx .byte 63 64 63, .loadLockedIdx .byte 63 63 64, .loadLockedIdxPostInc .byte 64 63 63,
    .loadLockedIdxPostInc .byte 63 64 63, .loadLockedIdxPostInc .byte 63 63 64,
    .loadLockedIdxPostDec .byte 64 63 63, .loadLockedIdxPostDec .byte 63 64 63,
    .loadLockedIdxPostDec .byte 63 63 64, .loadLockedIdxPreInc .byte 64 63 63, .loadLockedIdxPreInc .byte 63 64 63,
    .loadLockedIdxPreInc .byte 63 63 64, .loadLockedIdxPreDec .byte 64 63 63, .loadLockedIdxPreDec .byte 63 64 63,
    .loadLockedIdxPreDec .byte 63 63 64, .storeCondDisp .byte 64 63 0, .storeCondDisp .byte 63 64 0,
    .storeCondReg .byte 64 63, .storeCondReg .byte 63 64, .storeCondRegPostInc .byte 64 63,
    .storeCondRegPostInc .byte 63 64, .storeCondRegPostDec .byte 64 63, .storeCondRegPostDec .byte 63 64,
    .storeCondRegPreInc .byte 64 63, .storeCondRegPreInc .byte 63 64, .storeCondRegPreDec .byte 64 63,
    .storeCondRegPreDec .byte 63 64, .storeCondIdx .byte 64 63 63, .storeCondIdx .byte 63 64 63,
    .storeCondIdx .byte 63 63 64, .storeCondIdxPostInc .byte 64 63 63, .storeCondIdxPostInc .byte 63 64 63,
    .storeCondIdxPostInc .byte 63 63 64, .storeCondIdxPostDec .byte 64 63 63, .storeCondIdxPostDec .byte 63 64 63,
    .storeCondIdxPostDec .byte 63 63 64, .storeCondIdxPreInc .byte 64 63 63, .storeCondIdxPreInc .byte 63 64 63,
    .storeCondIdxPreInc .byte 63 63 64, .storeCondIdxPreDec .byte 64 63 63, .storeCondIdxPreDec .byte 63 64 63,
    .storeCondIdxPreDec .byte 63 63 64, .movRegReg .byte 64 63, .movRegReg .byte 63 64, .movRegSpc .byte 64 63,
    .movRegSpc .byte 63 64, .movSpcReg .byte 64 63, .movSpcReg .byte 63 64, .movRegDsp .byte 64 63,
    .movRegDsp .byte 63 64, .movDspReg .byte 64 63, .movDspReg .byte 63 64, .movRegFpr .byte 64 63,
    .movRegFpr .byte 63 64, .movFprReg .byte 64 63, .movFprReg .byte 63 64, .loadImm .byte true 64 0,
    .addReg .byte true 64 63, .addReg .byte true 63 64, .addImm .byte true 64 0, .subReg .byte true 64 63,
    .subReg .byte true 63 64] = true := by
  decide

theorem test_wellFormed_refuses_3 :
  refusesAll [
    .subImm .byte true 64 0, .mulReg .byte true 64 63, .mulReg .byte true 63 64, .mulImm .byte true 64 0,
    .divReg .byte true 64 63, .divReg .byte true 63 64, .divImm .byte true 64 0, .slReg .byte true 64 63,
    .slReg .byte true 63 64, .slImm .byte true 64 0, .srReg .byte true 64 63, .srReg .byte true 63 64,
    .srImm .byte true 64 0, .andReg .byte true 64 63, .andReg .byte true 63 64, .andImm .byte true 64 0,
    .nandReg .byte true 64 63, .nandReg .byte true 63 64, .nandImm .byte true 64 0, .orReg .byte true 64 63,
    .orReg .byte true 63 64, .orImm .byte true 64 0, .xorReg .byte true 64 63, .xorReg .byte true 63 64,
    .xorImm .byte true 64 0, .rlReg .byte 64 63, .rlReg .byte 63 64, .rlImm .byte 64 0, .rrReg .byte 64 63,
    .rrReg .byte 63 64, .rrImm .byte 64 0, .sbReg .byte 64 63, .sbReg .byte 63 64, .sbImm .byte 64 0,
    .rbReg .byte 64 63, .rbReg .byte 63 64, .rbImm .byte 64 0, .tbReg .byte 64 63, .tbReg .byte 63 64,
    .tbImm .byte 64 0, .rvbReg .byte 64 63, .rvbReg .byte 63 64, .rvbImm .byte 64 0, .madReg .byte true 64 63 63,
    .madReg .byte true 63 64 63, .madReg .byte true 63 63 64, .madImm .byte true 64 63 0,
    .madImm .byte true 63 64 0, .msuReg .byte true 64 63 63, .msuReg .byte true 63 64 63,
    .msuReg .byte true 63 63 64, .msuImm .byte true 64 63 0, .msuImm .byte true 63 64 0, .fadd 64 63, .fadd 63 64,
    .fsub 64 63, .fsub 63 64, .fmul 64 63, .fmul 63 64, .fdiv 64 63, .fdiv 63 64, .frem 64 63, .frem 63 64,
    .fcmp 64 63] = true := by
  decide

theorem test_wellFormed_refuses_4 :
  refusesAll [
    .fcmp 63 64, .fsqr 64, .fabs 64, .fneg 64, .frnd 64, .ff2i .byte true 64, .fi2f .byte true 64, .fextH 64,
    .fextW 64, .fextD 64, .fextQ 64, .fext1 64, .fsqzH 64, .fsqzW 64, .fsqzD 64, .fsqzQ 64, .fsqz1 64,
    .fmad 64 63 63, .fmad 63 64 63, .fmad 63 63 64, .fmsu 64 63 63, .fmsu 63 64 63, .fmsu 63 63 64,
    .jmpReg true true 64, .bzReg .byte true true 64 63, .bzReg .byte true true 63 64, .bzOff .byte true true 64 0,
    .bnzReg .byte true true 64 63, .bnzReg .byte true true 63 64, .bnzOff .byte true true 64 0,
    .bmReg .byte true true 64 63, .bmReg .byte true true 63 64, .bmOff .byte true true 64 0,
    .bmzReg .byte true true 64 63, .bmzReg .byte true true 63 64, .bmzOff .byte true true 64 0,
    .bnmReg .byte true true 64 63, .bnmReg .byte true true 63 64, .bnmOff .byte true true 64 0,
    .bnmoReg .byte true true 64 63, .bnmoReg .byte true true 63 64, .bnmoOff .byte true true 64 0,
    .blReg .byte true true 64 63, .blReg .byte true true 63 64, .blOff .byte true true 64 0,
    .blzReg .byte true true 64 63, .blzReg .byte true true 63 64, .blzOff .byte true true 64 0,
    .bnlReg .byte true true 64 63, .bnlReg .byte true true 63 64, .bnlOff .byte true true 64 0,
    .bnloReg .byte true true 64 63, .bnloReg .byte true true 63 64, .bnloOff .byte true true 64 0,
    .boReg .byte true true 64 63, .boReg .byte true true 63 64, .boOff .byte true true 64 0,
    .bnoReg .byte true true 64 63, .bnoReg .byte true true 63 64, .bnoOff .byte true true 64 0, .waitReg 64] = true := by
  decide

/-! ### One step of each instruction -/

theorem test_loadDisp_v1 :
    let t := run 0xC40FF0BF (poke [(0x100, 1, 0x7F)] (start [(2, 0x101), (3, 0xAABBCCDD)]))
    reg t 3 = 0xAABBCC7F ∧ t.ic = 6 ∧ t.est = 0 ∧ t.exc = 0 := by
  decide

theorem test_loadReg_v9 :
    let t := run 0xD87C0002 (poke [(0x80, 8, 0x1122334455667788)] (start [(0, 2), (2, 0x80), (31, 1)]))
    reg t 0 = 0x11223344 ∧ reg t 31 = 0x55667788 ∧ t.ic = 6 ∧ t.est = 0 ∧ t.exc = 0 := by
  decide

theorem test_loadReg_v12 :
    let t := run 0xD00C0002 (poke [(0, 2, 0x4433), (0xFFFFFFFE, 2, 0x2211)] (start [(2, 0xFFFFFFFE), (3, 0)]))
    reg t 3 = 0x44332211 ∧ t.ic = 6 ∧ t.est = 0 ∧ t.exc = 0 := by
  decide

theorem test_loadRegPostInc_v3 :
    let t := run 0xC80C4001 (poke [(0x40, 2, 0x1234)] (start [(1, 0x40), (3, 0xFFFFFFFF)]))
    reg t 1 = 0x42 ∧ reg t 3 = 0xFFFF1234 ∧ t.ic = 6 ∧ t.est = 0 ∧ t.exc = 0 := by
  decide

theorem test_loadIdxPostDec_v5 :
    let t := run 0xC00E8081 (poke [(0x203, 1, 0xA5)] (start [(1, 3), (2, 0x200), (3, 0)]))
    reg t 1 = 2 ∧ reg t 3 = 0xA5 ∧ t.ic = 6 ∧ t.est = 0 ∧ t.exc = 0 := by
  decide

theorem test_loadIdxPreInc_v6 :
    let t := run 0xC80F4081 (poke [(0x204, 2, 0xABCD)] (start [(1, 2), (2, 0x200), (3, 0)]))
    reg t 1 = 4 ∧ reg t 3 = 0xABCD ∧ t.ic = 6 ∧ t.est = 0 ∧ t.exc = 0 := by
  decide

theorem test_storeReg_v2 :
    let t := run 0x900C0002 (start [(2, 0x1A), (3, 0xABCDEF01)])
    t.ic = 6 ∧ t.memRead 0x1A 4 = 0xABCDEF01 ∧ t.est = 0 ∧ t.exc = 0 := by
  decide

theorem test_storeRegPostInc_v8 :
    let t := run 0x90044001 (poke [(0x40, 4, 0xFFFFFFFF)] (start [(1, 0x40)]))
    reg t 1 = 0x44 ∧ t.ic = 6 ∧ t.memRead 0x40 4 = 0x40 ∧ t.est = 0 ∧ t.exc = 0 := by
  decide

theorem test_storeRegPreDec_v4 :
    let t := run 0x9015801D (start [(5, 0x11223344), (29, 0x1000)])
    reg t 29 = 0xFFC ∧ t.ic = 6 ∧ t.memRead 0xFFC 4 = 0x11223344 ∧ t.est = 0 ∧ t.exc = 0 := by
  decide

theorem test_loadLockedReg_v13 :
    let t := run 0xD20C0002 (poke [(0x100, 4, 0x2A)] (start [(2, 0x100), (3, 0)]))
    t.reservation = some (0x100, 4) ∧ reg t 3 = 0x2A ∧ t.ic = 6 ∧ t.est = 0 ∧ t.exc = 0 := by
  decide

theorem test_storeCondReg_v14 :
    let t := run 0x920C0002 (poke [(0x100, 4, 0x2A)] { start [(2, 0x100), (3, 0x2B)] with
        reservation := some (0x100, 4) })
    t.reservation = none ∧ reg t 3 = 1 ∧ t.ic = 6 ∧ t.memRead 0x100 1 = 0x2B ∧ t.est = 0 ∧ t.exc = 0 := by
  decide

theorem test_storeCondReg_v16 :
    let t := run 0x8A0C0002 (poke [(0x100, 4, 0x2A)] { start [(2, 0x100), (3, 0xFFFF002B)] with
        reservation := some (0x100, 4) })
    t.reservation = none ∧ reg t 3 = 0xFFFF0000 ∧ t.ic = 6 ∧ t.est = 0 ∧ t.exc = 0 := by
  decide

theorem test_storeCondRegPostInc_v17 :
    let t := run 0x920C4002 { start [(2, 0x100), (3, 0x2B)] with reservation := some (0x100, 4) }
    t.reservation = none ∧ reg t 2 = 0x104 ∧ reg t 3 = 1 ∧ t.ic = 6 ∧ t.memRead 0x100 1 = 0x2B ∧ t.est = 0 ∧
      t.exc = 0 := by
  decide

theorem test_movRegReg_v19 :
    let t := run 0xD90C0002 (start [(2, 0x11111111), (3, 0x22222222), (4, 0x33333333)])
    reg t 3 = 0x11111111 ∧ reg t 4 = 0x22222222 ∧ t.ic = 6 ∧ t.est = 0 ∧ t.exc = 0 := by
  decide

theorem test_movRegSpc_v22 :
    let t := run 0xD90C401A { start [(3, 1), (4, 1)] with dcr := 0xBEEF00000000 }
    reg t 3 = 0xBEEF ∧ reg t 4 = 0x23E93 ∧ t.ic = 6 ∧ t.est = 0 ∧ t.exc = 0 := by
  decide

theorem test_movSpcReg_v25 :
    let t := run 0xC13C8003 { start [(3, 0xC)] with scr := 0xFFFF0001 }
    t.scr = 0xFFFF000C ∧ t.ic = 6 ∧ t.est = 0 ∧ t.exc = 0 := by
  decide

theorem test_movSpcReg_v31 :
    let t := run 0xD1188001 (start [(1, 0xFFFFFFFF)])
    t.exm = 0xFFFFFFFE ∧ t.ic = 6 ∧ t.est = 0 ∧ t.exc = 0 := by
  decide

theorem test_movRegDsp_v34 :
    let t := run 0xD104C002 (start [(1, 9)])
    reg t 1 = 9 ∧ t.exi = 0xD104C002 ∧ t.exc = 0x40 ∧ t.ic = 6 ∧ t.est = 0 := by
  decide

theorem test_movFprReg_v35 :
    let t := run 0xD10BC001 (start [(1, 9)])
    t.exi = 0xD10BC001 ∧ t.exc = 0x40 ∧ t.ic = 6 ∧ t.est = 0 := by
  decide

theorem test_loadImm_v41 :
    let t := run 0xD70FFFFB (start [(3, 0)])
    reg t 3 = 0x3FFFB ∧ t.ic = 6 ∧ t.est = 0 ∧ t.exc = 0 := by
  decide

theorem test_loadImm_v44 :
    let t := run 0xDD0FFFFB (start [(3, 0), (4, 0)])
    reg t 3 = 0xFFFFFFFB ∧ reg t 4 = 0xFFFFFFFF ∧ t.ic = 6 ∧ t.est = 0 ∧ t.exc = 0 := by
  decide

theorem test_addReg_v55 :
    let t := run 0x100C0080 { start [(2, 1), (3, 0x7FFFFFFF)] with etb := 0x40, scr := 5 }
    t.savedE = some ⟨true, true, false⟩ ∧ t.exi = 0x100C0080 ∧ t.exc = 0x200 ∧ t.scr = 1 ∧ t.erp = 6 ∧ t.ic = 0x40 ∧
      t.est = 0 := by
  decide

theorem test_addReg_v54 :
    let t := run 0x100C00C0 (start [(3, 0x40000000)])
    reg t 3 = 0x7FFFFFFF ∧ t.est = 0x28 ∧ t.exi = 0x100C00C0 ∧ t.exc = 0x200 ∧ t.ic = 6 := by
  decide

theorem test_addImm_v49 :
    let t := run 0x040C01FF (start [(3, 0x80)])
    reg t 3 = 0x7F ∧ t.est = 0x88 ∧ t.exi = 0x40C01FF ∧ t.exc = 0x200 ∧ t.ic = 6 := by
  decide

theorem test_addImm_v50 :
    let t := run 0x060C0001 (start [(3, 0xFF)])
    t.est = 0x448 ∧ t.exi = 0x60C0001 ∧ t.exc = 0x200 ∧ t.ic = 6 := by
  decide

theorem test_subReg_v57 :
    let t := run 0x120C4080 (start [(2, 2), (3, 1)])
    reg t 3 = 0xFFFFFFFF ∧ t.est = 0x488 ∧ t.exi = 0x120C4080 ∧ t.exc = 0x200 ∧ t.ic = 6 := by
  decide

theorem test_subImm_v59 :
    let t := run 0x0C0C4001 (start [(3, 0xABCD0000)])
    reg t 3 = 0xABCDFFFF ∧ t.est = 0x480 ∧ t.ic = 6 ∧ t.exc = 0 := by
  decide

theorem test_mulReg_v60 :
    let t := run 0x100C8080 (start [(2, 3), (3, 0xFFFFFFFE), (4, 0x55)])
    reg t 3 = 0xFFFFFFFA ∧ reg t 4 = 0xFFFFFFFF ∧ t.est = 0x480 ∧ t.ic = 6 ∧ t.exc = 0 := by
  decide

theorem test_mulReg_v62 :
    let t := run 0x000C8080 (start [(2, 0x10), (3, 0xAABB0010)])
    reg t 3 = 0xAABB0100 ∧ t.est = 0x20 ∧ t.ic = 6 ∧ t.exc = 0 := by
  decide

theorem test_mulImm_v66 :
    let t := run 0x140C8000 (start [(3, 5), (4, 9)])
    reg t 3 = 0 ∧ reg t 4 = 0 ∧ t.est = 0x840 ∧ t.ic = 6 ∧ t.exc = 0 := by
  decide

theorem test_divReg_v70 :
    let t := run 0x120CC080 (start [(2, 2), (3, 0xFFFFFFF9), (4, 0x55)])
    reg t 3 = 0x7FFFFFFC ∧ reg t 4 = 1 ∧ t.est = 0x40 ∧ t.ic = 6 ∧ t.exc = 0 := by
  decide

theorem test_divReg_v74 :
    let t := run 0x100CC080 (start [(2, 0xFFFFFFFF), (3, 0x80000000), (4, 0x55)])
    reg t 3 = 0x7FFFFFFF ∧ reg t 4 = 0 ∧ t.est = 0x88 ∧ t.exi = 0x100CC080 ∧ t.exc = 0x200 ∧ t.ic = 6 := by
  decide

theorem test_divImm_v78 :
    let t := run 0x140CC000 (start [(3, 0), (4, 0x55)])
    reg t 3 = 0x7FFFFFFF ∧ reg t 4 = 0 ∧ t.est = 0x24 ∧ t.exi = 0x140CC000 ∧ t.exc = 0x100 ∧ t.ic = 6 := by
  decide

theorem test_slReg_v79 :
    let t := run 0x120D0080 (start [(2, 2), (3, 0x12BCD86)])
    reg t 3 = 0x4AF3618 ∧ t.est = 0x40 ∧ t.ic = 6 ∧ t.exc = 0 := by
  decide

theorem test_slImm_v81 :
    let t := run 0x160D001F (start [(3, 3)])
    reg t 3 = 0x80000000 ∧ t.est = 0x480 ∧ t.ic = 6 ∧ t.exc = 0 := by
  decide

theorem test_srReg_v86 :
    let t := run 0x120D4080 (start [(2, 4), (3, 0x80000000)])
    reg t 3 = 0x8000000 ∧ t.est = 0x40 ∧ t.ic = 6 ∧ t.exc = 0 := by
  decide

theorem test_srImm_v88 :
    let t := run 0x140D4028 (start [(3, 0x80000000)])
    reg t 3 = 0xFFFFFFFF ∧ t.est = 0x440 ∧ t.ic = 6 ∧ t.exc = 0 := by
  decide

theorem test_andReg_v100 :
    let t := run 0x120DC080 (start [(2, 0xFF), (3, 0x1234)])
    reg t 3 = 0x34 ∧ t.est = 0x40 ∧ t.ic = 6 ∧ t.exc = 0 := by
  decide

theorem test_andImm_v97 :
    let t := run 0x140DCF0F (start [(3, 0x12BCD86)])
    reg t 3 = 0xD06 ∧ t.est = 0x40 ∧ t.ic = 6 ∧ t.exc = 0 := by
  decide

theorem test_nandImm_v101 :
    let t := run 0x140E3FFF (start [(3, 0xFFFF)])
    reg t 3 = 0xFFFF0000 ∧ t.est = 0x480 ∧ t.ic = 6 ∧ t.exc = 0 := by
  decide

theorem test_orReg_v104 :
    let t := run 0x080E4080 (start [(2, 0xFFFF8000), (3, 0x10001)])
    reg t 3 = 0x18001 ∧ t.est = 0x480 ∧ t.ic = 6 ∧ t.exc = 0 := by
  decide

theorem test_orImm_v103 :
    let t := run 0x160E7F0F (start [(3, 0x12BCD86)])
    reg t 3 = 0x12BFF8F ∧ t.est = 0x40 ∧ t.ic = 6 ∧ t.exc = 0 := by
  decide

theorem test_xorReg_v105 :
    let t := run 0x100E80C0 (start [(3, 0xDEADBEEF)])
    reg t 3 = 0 ∧ t.est = 0x820 ∧ t.ic = 6 ∧ t.exc = 0 := by
  decide

theorem test_xorImm_v106 :
    let t := run 0x160EBF0F (start [(3, 0x12BCD86)])
    reg t 3 = 0x12BF289 ∧ t.est = 0x40 ∧ t.ic = 6 ∧ t.exc = 0 := by
  decide

theorem test_rlImm_v91 :
    let t := run 0x140D8021 (start [(3, 0x80000001)])
    reg t 3 = 3 ∧ t.est = 0x40 ∧ t.ic = 6 ∧ t.exc = 0 := by
  decide

theorem test_rrReg_v96 :
    let t := run 0x120D8080 (start [(2, 4), (3, 0xF)])
    reg t 3 = 0xF0000000 ∧ t.est = 0x440 ∧ t.ic = 6 ∧ t.exc = 0 := by
  decide

theorem test_rrImm_v94 :
    let t := run 0x060D8009 (start [(3, 0x81)])
    reg t 3 = 0xC0 ∧ t.est = 0x440 ∧ t.ic = 6 ∧ t.exc = 0 := by
  decide

theorem test_sbReg_v108 :
    let t := run 0x100EC080 (start [(2, 3), (3, 0xFFFFFFF7)])
    reg t 3 = 0xFFFFFFFF ∧ t.est = 0x440 ∧ t.ic = 6 ∧ t.exc = 0 := by
  decide

theorem test_sbImm_v107 :
    let t := run 0x140EC01F (start [(3, 0)])
    reg t 3 = 0x80000000 ∧ t.est = 0x480 ∧ t.ic = 6 ∧ t.exc = 0 := by
  decide

theorem test_rbReg_v113 :
    let t := run 0x120EC080 (start [(2, 3), (3, 0xFFFFFFFF)])
    reg t 3 = 0xFFFFFFF7 ∧ t.est = 0x440 ∧ t.ic = 6 ∧ t.exc = 0 := by
  decide

theorem test_rbImm_v114 :
    let t := run 0x060EC000 (start [(3, 1)])
    reg t 3 = 0 ∧ t.est = 0x840 ∧ t.ic = 6 ∧ t.exc = 0 := by
  decide

theorem test_tbReg_v115 :
    let t := run 0x100F0080 (start [(2, 3), (3, 8)])
    reg t 3 = 1 ∧ t.est = 0x40 ∧ t.ic = 6 ∧ t.exc = 0 := by
  decide

theorem test_tbImm_v116 :
    let t := run 0x140F0002 (start [(3, 0xFFFFFFFB)])
    reg t 3 = 0 ∧ t.est = 0x840 ∧ t.ic = 6 ∧ t.exc = 0 := by
  decide

theorem test_rvbImm_v118 :
    let t := run 0x160F000F (start [(3, 0xAAAAAAAA)])
    reg t 3 = 0xAAAA5555 ∧ t.est = 0x440 ∧ t.ic = 6 ∧ t.exc = 0 := by
  decide

theorem test_madReg_v123 :
    let t := run 0x100F8081 (start [(1, 0x101C), (2, 0x2AB), (3, 0x12BCD86), (4, 0)])
    reg t 3 = 0x1FDD649E ∧ reg t 4 = 3 ∧ t.est = 0x40 ∧ t.ic = 6 ∧ t.exc = 0 := by
  decide

theorem test_madImm_v126 :
    let t := run 0x140FB0BF (start [(2, 3), (3, 0xFFFFFFFE), (4, 0)])
    reg t 3 = 0xFFFFFFF9 ∧ reg t 4 = 0xFFFFFFFF ∧ t.est = 0x480 ∧ t.ic = 6 ∧ t.exc = 0 := by
  decide

theorem test_msuReg_v129 :
    let t := run 0x120FC081 (start [(1, 1), (2, 0), (3, 0), (4, 0)])
    reg t 3 = 0xFFFFFFFF ∧ reg t 4 = 0xFFFFFFFF ∧ t.est = 0x420 ∧ t.ic = 6 ∧ t.exc = 0 := by
  decide

theorem test_msuImm_v124 :
    let t := run 0x140FD0A4 (start [(2, 0x2AB), (3, 0x12BCD86), (4, 0)])
    reg t 3 = 0x1FDD541E ∧ reg t 4 = 3 ∧ t.est = 0x40 ∧ t.ic = 6 ∧ t.exc = 0 := by
  decide

theorem test_fadd_v189 :
    let t := run 0x010C0080 (start [(2, 0x33800000), (3, 0x3F800000)])
    t.est = 0x140 ∧ t.exi = 0x10C0080 ∧ t.exc = 0x8000 ∧ t.ic = 6 := by
  decide

theorem test_fadd_v195 :
    let t := run 0x010C0080 { start [(2, 0x40000000), (3, 0x3F800000)] with etb := 0x40, scr := 5 }
    reg t 3 = 0x40400000 ∧ t.est = 0x80 ∧ t.ic = 6 ∧ t.exc = 0 := by
  decide

theorem test_fsub_v198 :
    let t := run 0x010C4080 (start [(2, 0x40400000), (3, 0x3F800000)])
    reg t 3 = 0xC0000000 ∧ t.est = 0x480 ∧ t.ic = 6 ∧ t.exc = 0 := by
  decide

theorem test_fmul_v201 :
    let t := run 0x010C8080 (start [(2, 0x40000000), (3, 0x7F7FFFFF)])
    reg t 3 = 0x7F800000 ∧ t.est = 0x2148 ∧ t.exi = 0x10C8080 ∧ t.exc = 0xA000 ∧ t.ic = 6 := by
  decide

theorem test_fdiv_v208 :
    let t := run 0x010CC080 (start [(2, 0), (3, 0x3F800000)])
    reg t 3 = 0x7F800000 ∧ t.est = 0x2044 ∧ t.exi = 0x10CC080 ∧ t.exc = 0x1000 ∧ t.ic = 6 := by
  decide

theorem test_frem_v212 :
    let t := run 0x010D0080 (start [(2, 0x40000000), (3, 0x40A00000)])
    reg t 3 = 0x3F800000 ∧ t.est = 0x40 ∧ t.ic = 6 ∧ t.exc = 0 := by
  decide

theorem test_fcmp_v217 :
    let t := run 0x010D4080 (start [(2, 0x3F800000), (3, 0x3F800000)])
    reg t 3 = 0x3F800020 ∧ t.est = 0x20 ∧ t.ic = 6 ∧ t.exc = 0 := by
  decide

theorem test_fsqr_v224 :
    let t := run 0x010D8000 (start [(3, 0x40000000)])
    reg t 3 = 0x3FB504F3 ∧ t.est = 0x100 ∧ t.exi = 0x10D8000 ∧ t.exc = 0x8000 ∧ t.ic = 6 := by
  decide

theorem test_fabs_v228 :
    let t := run 0x010DC000 (start [(3, 0xC0200000)])
    reg t 3 = 0x40200000 ∧ t.ic = 6 ∧ t.est = 0 ∧ t.exc = 0 := by
  decide

theorem test_fneg_v231 :
    let t := run 0x010E0000 (start [(3, 0x40200000)])
    reg t 3 = 0xC0200000 ∧ t.est = 0x400 ∧ t.ic = 6 ∧ t.exc = 0 := by
  decide

theorem test_frnd_v236 :
    let t := run 0x010E4000 (start [(3, 0x40600000)])
    reg t 3 = 0x40800000 ∧ t.est = 0x100 ∧ t.exi = 0x10E4000 ∧ t.exc = 0x8000 ∧ t.ic = 6 := by
  decide

theorem test_ff2i_v253 :
    let t := run 0x110E8000 (start [(3, 0x40E00000)])
    reg t 3 = 7 ∧ t.ic = 6 ∧ t.est = 0 ∧ t.exc = 0 := by
  decide

theorem test_ff2i_v258 :
    let t := run 0x010E8000 (start [(3, 0x42FF0000)])
    reg t 3 = 0x42FF0000 ∧ t.est = 1 ∧ t.exi = 0x10E8000 ∧ t.exc = 0x400 ∧ t.ic = 6 := by
  decide

theorem test_fi2f_v266 :
    let t := run 0x110EC000 (start [(3, 0xF)])
    reg t 3 = 0x41700000 ∧ t.ic = 6 ∧ t.est = 0 ∧ t.exc = 0 := by
  decide

theorem test_fextH_v273 :
    let t := run 0x090F0000 (start [(3, 0xAAAA3C00)])
    reg t 3 = 0x3F800000 ∧ t.ic = 6 ∧ t.est = 0 ∧ t.exc = 0 := by
  decide

theorem test_fextW_v279 :
    let t := run 0x110F0000 (start [(3, 0x3F800000)])
    reg t 3 = 0x3F800000 ∧ t.ic = 6 ∧ t.est = 0 ∧ t.exc = 0 := by
  decide

theorem test_fsqzH_v282 :
    let t := run 0x090F4000 (start [(3, 0x3F800000)])
    reg t 3 = 0x3F803C00 ∧ t.ic = 6 ∧ t.est = 0 ∧ t.exc = 0 := by
  decide

theorem test_fmad_v289 :
    let t := run 0x010F8081 (start [(1, 0x3F800000), (2, 0x40400000), (3, 0x40000000)])
    reg t 3 = 0x40E00000 ∧ t.est = 0x80 ∧ t.ic = 6 ∧ t.exc = 0 := by
  decide

theorem test_fmsu_v290 :
    let t := run 0x010FC081 (start [(1, 0x3F800000), (2, 0x40400000), (3, 0x40000000)])
    reg t 3 = 0x40A00000 ∧ t.est = 0x80 ∧ t.ic = 6 ∧ t.exc = 0 := by
  decide

theorem test_jmpReg_v134 :
    let t := run 0x410000C0 (start [(3, 7)])
    t.crp = 6 ∧ t.ic = 0xC ∧ t.est = 0 ∧ t.exc = 0 := by
  decide

theorem test_jmpOff_v132 :
    let t := run 0x44000000 (start [])
    t.ic = 5 ∧ t.est = 0 ∧ t.exc = 0 := by
  decide

theorem test_bzReg_v143 :
    let t := run 0x400840C0 (start [(2, 0x12345600), (3, 7)])
    t.ic = 0xC ∧ t.est = 0 ∧ t.exc = 0 := by
  decide

theorem test_bzOff_v144 :
    let t := run 0x5608400F (start [(2, 0x12345600)])
    t.ic = 6 ∧ t.est = 0 ∧ t.exc = 0 := by
  decide

theorem test_bnzOff_v145 :
    let t := run 0x54088019 (start [(2, 1)])
    t.ic = 0x1E ∧ t.est = 0 ∧ t.exc = 0 := by
  decide

theorem test_bmReg_v146 :
    let t := run 0x4008C0C0 (start [(2, 0x80), (3, 7)])
    t.ic = 0xC ∧ t.est = 0 ∧ t.exc = 0 := by
  decide

theorem test_bmOff_v147 :
    let t := run 0x5408C019 (start [(2, 0x80)])
    t.ic = 6 ∧ t.est = 0 ∧ t.exc = 0 := by
  decide

theorem test_bmzReg_v148 :
    let t := run 0x480900C0 (start [(2, 0xFFFF0000), (3, 7)])
    t.ic = 0xC ∧ t.est = 0 ∧ t.exc = 0 := by
  decide

theorem test_bmzOff_bmzabcdef00 :
    let t := run 0x44090019 (start [(2, 0xABCDEF00)])
    t.ic = 0x1E ∧ t.est = 0 ∧ t.exc = 0 := by
  decide

theorem test_bnmOff_v149 :
    let t := run 0x56094019 (start [(2, 0x7FFFFFFF)])
    t.ic = 0x19 ∧ t.est = 0 ∧ t.exc = 0 := by
  decide

theorem test_bnmoReg_v150 :
    let t := run 0x480980C0 (start [(2, 0xFFFF), (3, 7)])
    t.ic = 0xC ∧ t.est = 0 ∧ t.exc = 0 := by
  decide

theorem test_bnmoOff_bnmoabcdef00 :
    let t := run 0x44098019 (start [(2, 0xABCDEF00)])
    t.ic = 0x1E ∧ t.est = 0 ∧ t.exc = 0 := by
  decide

theorem test_blOff_v152 :
    let t := run 0x5509C003 { start [(2, 0xF)] with ic := 1 }
    t.crp = 2 ∧ t.ic = 4 ∧ t.est = 0 ∧ t.exc = 0 := by
  decide

theorem test_blzReg_v154 :
    let t := run 0x480A00C0 (start [(2, 0x10000), (3, 7)])
    t.ic = 0xC ∧ t.est = 0 ∧ t.exc = 0 := by
  decide

theorem test_blzOff_blzabcdef00 :
    let t := run 0x440A0019 (start [(2, 0xABCDEF00)])
    t.ic = 0x1E ∧ t.est = 0 ∧ t.exc = 0 := by
  decide

theorem test_bnlReg_v155 :
    let t := run 0x400A40C0 (start [(2, 0xFE), (3, 7)])
    t.ic = 0xC ∧ t.est = 0 ∧ t.exc = 0 := by
  decide

theorem test_bnlOff_bnlabcdef00 :
    let t := run 0x440A4019 (start [(2, 0xABCDEF00)])
    t.ic = 0x1E ∧ t.est = 0 ∧ t.exc = 0 := by
  decide

theorem test_bnloOff_v156 :
    let t := run 0x540A8019 (start [(2, 0xFFFFFFFF)])
    t.ic = 0x1E ∧ t.est = 0 ∧ t.exc = 0 := by
  decide

theorem test_boReg_v157 :
    let t := run 0x400AC0C0 (start [(2, 0xFF), (3, 7)])
    t.ic = 0xC ∧ t.est = 0 ∧ t.exc = 0 := by
  decide

theorem test_boOff_v158 :
    let t := run 0x560AC00F (start [(2, 0xFF)])
    t.ic = 6 ∧ t.est = 0 ∧ t.exc = 0 := by
  decide

theorem test_bnoOff_v159 :
    let t := run 0x540B3FFB (start [(2, 0)])
    t.ic = 0 ∧ t.est = 0 ∧ t.exc = 0 := by
  decide

theorem test_ret_v162 :
    let t := run 0x40034000 { start [] with crp := 6, ic := 0xC }
    t.ic = 6 ∧ t.est = 0 ∧ t.exc = 0 := by
  decide

theorem test_reti_v165 :
    let t := run 0x48034000 { start [] with scr := 1, irp := 9, savedI := some true, ic := 0x14 }
    t.savedI = none ∧ t.scr = 9 ∧ t.ic = 9 ∧ t.est = 0 ∧ t.exc = 0 := by
  decide

theorem test_rete_v167 :
    let t := run 0x50034000 { start [] with savedE := some ⟨false, true, true⟩, scr := 1, erp := 8, ic := 0x14 }
    t.savedE = none ∧ t.scr = 0xC ∧ t.ic = 8 ∧ t.est = 0 ∧ t.exc = 0 := by
  decide

theorem test_retn_v170 :
    let t := run 0x58034000 { start [] with
        savedN := some ⟨true, false, true⟩, exc := 1, scr := 1, nrp := 8, ic := 0x14 }
    t.savedN = none ∧ t.scr = 9 ∧ t.ic = 8 ∧ t.est = 0 := by
  decide

theorem test_waitImm_v172 :
    let t := run 0x44038003 (start [])
    t.waiting = true ∧ t.ic = 5 ∧ t.waitTimer = 3 ∧ t.est = 0 ∧ t.exc = 0 := by
  decide

theorem test_loadRegPostDec :
    let t := run 0xC80C8001 (poke [(0x40, 2, 0x2211)] (start [(1, 0x40), (2, 0x200), (3, 0xFFEEDDCC)]))
    reg t 3 = 0xFFEE2211 ∧ reg t 1 = 0x3E ∧ t.ic = 6 ∧ t.exc = 0 := by
  decide

theorem test_loadRegPreInc :
    let t := run 0xD00D4001 (poke [(0x44, 4, 0x44332211)] (start [(1, 0x40), (2, 0x200), (3, 0xFFEEDDCC)]))
    reg t 3 = 0x44332211 ∧ reg t 1 = 0x44 ∧ t.ic = 6 ∧ t.exc = 0 := by
  decide

theorem test_loadRegPreDec :
    let t := run 0xC00D8001 (poke [(0x3F, 1, 0x11)] (start [(1, 0x40), (2, 0x200), (3, 0xFFEEDDCC)]))
    reg t 3 = 0xFFEEDD11 ∧ reg t 1 = 0x3F ∧ t.ic = 6 ∧ t.exc = 0 := by
  decide

theorem test_loadIdx :
    let t := run 0xD80E0081 (poke [(0x240, 8, 0x8877665544332211)]
      (start [(1, 0x40), (2, 0x200), (3, 0xFFEEDDCC), (4, 9)]))
    reg t 3 = 0x44332211 ∧ reg t 4 = 0x88776655 ∧ reg t 1 = 0x40 ∧ t.ic = 6 ∧ t.exc = 0 := by
  decide

theorem test_loadIdxPostInc :
    let t := run 0xC80E4081 (poke [(0x240, 2, 0x2211)] (start [(1, 0x40), (2, 0x200), (3, 0xFFEEDDCC)]))
    reg t 3 = 0xFFEE2211 ∧ reg t 1 = 0x42 ∧ t.ic = 6 ∧ t.exc = 0 := by
  decide

theorem test_loadIdxPreDec :
    let t := run 0xD00F8081 (poke [(0x23C, 4, 0x44332211)] (start [(1, 0x40), (2, 0x200), (3, 0xFFEEDDCC)]))
    reg t 3 = 0x44332211 ∧ reg t 1 = 0x3C ∧ t.ic = 6 ∧ t.exc = 0 := by
  decide

theorem test_storeDisp :
    let t := run 0x840FF0BA (start [(1, 0x40), (2, 0x200), (3, 0xFFEEDD11)])
    t.memRead 0x1FA 1 = 0x11 ∧ t.memRead 0x1FB 1 = 0 ∧ t.ic = 6 ∧ t.exc = 0 := by
  decide

theorem test_storeRegPostDec :
    let t := run 0x980C8001 (start [(1, 0x40), (2, 0x200), (3, 0x44332211), (4, 0x88776655)])
    t.memRead 0x40 8 = 0x8877665544332211 ∧ t.memRead 0x48 1 = 0 ∧ reg t 1 = 0x38 ∧ t.ic = 6 ∧ t.exc = 0 := by
  decide

theorem test_storeRegPreInc :
    let t := run 0x880D4001 (start [(1, 0x40), (2, 0x200), (3, 0xFFEE2211)])
    t.memRead 0x42 2 = 0x2211 ∧ t.memRead 0x44 1 = 0 ∧ reg t 1 = 0x42 ∧ t.ic = 6 ∧ t.exc = 0 := by
  decide

theorem test_storeIdx :
    let t := run 0x900E0081 (start [(1, 0x40), (2, 0x200), (3, 0x44332211)])
    t.memRead 0x240 4 = 0x44332211 ∧ t.memRead 0x244 1 = 0 ∧ reg t 1 = 0x40 ∧ t.ic = 6 ∧ t.exc = 0 := by
  decide

theorem test_storeIdxPostInc :
    let t := run 0x800E4081 (start [(1, 0x40), (2, 0x200), (3, 0xFFEEDD11)])
    t.memRead 0x240 1 = 0x11 ∧ t.memRead 0x241 1 = 0 ∧ reg t 1 = 0x41 ∧ t.ic = 6 ∧ t.exc = 0 := by
  decide

theorem test_storeIdxPostDec :
    let t := run 0x980E8081 (start [(1, 0x40), (2, 0x200), (3, 0x44332211), (4, 0x88776655)])
    t.memRead 0x240 8 = 0x8877665544332211 ∧ t.memRead 0x248 1 = 0 ∧ reg t 1 = 0x38 ∧ t.ic = 6 ∧ t.exc = 0 := by
  decide

theorem test_storeIdxPreInc :
    let t := run 0x880F4081 (start [(1, 0x40), (2, 0x200), (3, 0xFFEE2211)])
    t.memRead 0x242 2 = 0x2211 ∧ t.memRead 0x244 1 = 0 ∧ reg t 1 = 0x42 ∧ t.ic = 6 ∧ t.exc = 0 := by
  decide

theorem test_storeIdxPreDec :
    let t := run 0x900F8081 (start [(1, 0x40), (2, 0x200), (3, 0x44332211)])
    t.memRead 0x23C 4 = 0x44332211 ∧ t.memRead 0x240 1 = 0 ∧ reg t 1 = 0x3C ∧ t.ic = 6 ∧ t.exc = 0 := by
  decide

theorem test_loadLockedDisp :
    let t := run 0xC60FF0BA (poke [(0x1FA, 1, 0x11)] (start [(1, 0x40), (2, 0x200), (3, 0xFFEEDDCC)]))
    reg t 3 = 0xFFEEDD11 ∧ t.reservation = some (0x1FA, 1) ∧ t.ic = 6 ∧ t.exc = 0 := by
  decide

theorem test_loadLockedRegPostInc :
    let t := run 0xDA0C4001 (poke [(0x40, 8, 0x8877665544332211)]
      (start [(1, 0x40), (2, 0x200), (3, 0xFFEEDDCC), (4, 9)]))
    reg t 3 = 0x44332211 ∧ reg t 4 = 0x88776655 ∧ t.reservation = some (0x40, 8) ∧ reg t 1 = 0x48 ∧ t.ic = 6 ∧
      t.exc = 0 := by
  decide

theorem test_loadLockedRegPostDec :
    let t := run 0xCA0C8001 (poke [(0x40, 2, 0x2211)] (start [(1, 0x40), (2, 0x200), (3, 0xFFEEDDCC)]))
    reg t 3 = 0xFFEE2211 ∧ t.reservation = some (0x40, 2) ∧ reg t 1 = 0x3E ∧ t.ic = 6 ∧ t.exc = 0 := by
  decide

theorem test_loadLockedRegPreInc :
    let t := run 0xD20D4001 (poke [(0x44, 4, 0x44332211)] (start [(1, 0x40), (2, 0x200), (3, 0xFFEEDDCC)]))
    reg t 3 = 0x44332211 ∧ t.reservation = some (0x44, 4) ∧ reg t 1 = 0x44 ∧ t.ic = 6 ∧ t.exc = 0 := by
  decide

theorem test_loadLockedRegPreDec :
    let t := run 0xC20D8001 (poke [(0x3F, 1, 0x11)] (start [(1, 0x40), (2, 0x200), (3, 0xFFEEDDCC)]))
    reg t 3 = 0xFFEEDD11 ∧ t.reservation = some (0x3F, 1) ∧ reg t 1 = 0x3F ∧ t.ic = 6 ∧ t.exc = 0 := by
  decide

theorem test_loadLockedIdx :
    let t := run 0xDA0E0081 (poke [(0x240, 8, 0x8877665544332211)]
      (start [(1, 0x40), (2, 0x200), (3, 0xFFEEDDCC), (4, 9)]))
    reg t 3 = 0x44332211 ∧ reg t 4 = 0x88776655 ∧ t.reservation = some (0x240, 8) ∧ reg t 1 = 0x40 ∧ t.ic = 6 ∧
      t.exc = 0 := by
  decide

theorem test_loadLockedIdxPostInc :
    let t := run 0xCA0E4081 (poke [(0x240, 2, 0x2211)] (start [(1, 0x40), (2, 0x200), (3, 0xFFEEDDCC)]))
    reg t 3 = 0xFFEE2211 ∧ t.reservation = some (0x240, 2) ∧ reg t 1 = 0x42 ∧ t.ic = 6 ∧ t.exc = 0 := by
  decide

theorem test_loadLockedIdxPostDec :
    let t := run 0xD20E8081 (poke [(0x240, 4, 0x44332211)] (start [(1, 0x40), (2, 0x200), (3, 0xFFEEDDCC)]))
    reg t 3 = 0x44332211 ∧ t.reservation = some (0x240, 4) ∧ reg t 1 = 0x3C ∧ t.ic = 6 ∧ t.exc = 0 := by
  decide

theorem test_loadLockedIdxPreInc :
    let t := run 0xC20F4081 (poke [(0x241, 1, 0x11)] (start [(1, 0x40), (2, 0x200), (3, 0xFFEEDDCC)]))
    reg t 3 = 0xFFEEDD11 ∧ t.reservation = some (0x241, 1) ∧ reg t 1 = 0x41 ∧ t.ic = 6 ∧ t.exc = 0 := by
  decide

theorem test_loadLockedIdxPreDec :
    let t := run 0xDA0F8081 (poke [(0x238, 8, 0x8877665544332211)]
      (start [(1, 0x40), (2, 0x200), (3, 0xFFEEDDCC), (4, 9)]))
    reg t 3 = 0x44332211 ∧ reg t 4 = 0x88776655 ∧ t.reservation = some (0x238, 8) ∧ reg t 1 = 0x38 ∧ t.ic = 6 ∧
      t.exc = 0 := by
  decide

theorem test_storeCondDisp :
    let t := run 0x8E0FF0BA { start [(1, 0x40), (2, 0x200), (3, 0xFFEE2211)] with reservation := some (0x1FA, 4) }
    t.memRead 0x1FA 2 = 0 ∧ reg t 3 = 0xFFEE0000 ∧ t.reservation = none ∧ t.ic = 6 ∧ t.exc = 0 := by
  decide

theorem test_storeCondRegPostDec :
    let t := run 0x920C8001 { start [(1, 0x40), (2, 0x200), (3, 0x44332211)] with reservation := some (0x40, 4) }
    t.memRead 0x40 4 = 0x44332211 ∧ reg t 3 = 1 ∧ t.reservation = none ∧ reg t 1 = 0x3C ∧ t.ic = 6 ∧ t.exc = 0 := by
  decide

theorem test_storeCondRegPreInc :
    let t := run 0x820D4001 { start [(1, 0x40), (2, 0x200), (3, 0xFFEEDD11)] with reservation := some (0x41, 1) }
    t.memRead 0x41 1 = 0x11 ∧ reg t 3 = 0xFFEEDD01 ∧ t.reservation = none ∧ reg t 1 = 0x41 ∧ t.ic = 6 ∧
      t.exc = 0 := by
  decide

theorem test_storeCondRegPreDec :
    let t := run 0x9A0D8001 { start [(1, 0x40), (2, 0x200), (3, 0x44332211), (4, 0x88776655)] with
        reservation := some (0x38, 16) }
    t.memRead 0x38 8 = 0 ∧ reg t 3 = 0 ∧ reg t 4 = 0 ∧ t.reservation = none ∧ reg t 1 = 0x38 ∧ t.ic = 6 ∧
      t.exc = 0 := by
  decide

theorem test_storeCondIdx :
    let t := run 0x8A0E0081 { start [(1, 0x40), (2, 0x200), (3, 0xFFEE2211)] with reservation := some (0x240, 2) }
    t.memRead 0x240 2 = 0x2211 ∧ reg t 3 = 0xFFEE0001 ∧ t.reservation = none ∧ reg t 1 = 0x40 ∧ t.ic = 6 ∧
      t.exc = 0 := by
  decide

theorem test_storeCondIdxPostInc :
    let t := run 0x920E4081 { start [(1, 0x40), (2, 0x200), (3, 0x44332211)] with reservation := some (0x240, 4) }
    t.memRead 0x240 4 = 0x44332211 ∧ reg t 3 = 1 ∧ t.reservation = none ∧ reg t 1 = 0x44 ∧ t.ic = 6 ∧ t.exc = 0 := by
  decide

theorem test_storeCondIdxPostDec :
    let t := run 0x820E8081 { start [(1, 0x40), (2, 0x200), (3, 0xFFEEDD11)] with reservation := some (0x240, 2) }
    t.memRead 0x240 1 = 0 ∧ reg t 3 = 0xFFEEDD00 ∧ t.reservation = none ∧ reg t 1 = 0x3F ∧ t.ic = 6 ∧ t.exc = 0 := by
  decide

theorem test_storeCondIdxPreInc :
    let t := run 0x9A0F4081 { start [(1, 0x40), (2, 0x200), (3, 0x44332211), (4, 0x88776655)] with
        reservation := some (0x248, 8) }
    t.memRead 0x248 8 = 0x8877665544332211 ∧ reg t 3 = 1 ∧ reg t 4 = 0 ∧ t.reservation = none ∧ reg t 1 = 0x48 ∧
      t.ic = 6 ∧ t.exc = 0 := by
  decide

theorem test_storeCondIdxPreDec :
    let t := run 0x8A0F8081 { start [(1, 0x40), (2, 0x200), (3, 0xFFEE2211)] with reservation := some (0x23E, 2) }
    t.memRead 0x23E 2 = 0x2211 ∧ reg t 3 = 0xFFEE0001 ∧ t.reservation = none ∧ reg t 1 = 0x3E ∧ t.ic = 6 ∧
      t.exc = 0 := by
  decide

/-! ### Forms the vectors do not cover, by hand from the rules of each -/

theorem test_nandReg : let t := run 0x100E0080 (start [(2, 0xFF00FF00), (3, 0xF0F0F0F0)])
    reg t 3 = 0x0FFF0FFF ∧ t.est = 0x80 ∧ t.ic = 6 := by decide

theorem test_rlReg : let t := run 0x100D8080 (start [(2, 36), (3, 0x80000001)])
    reg t 3 = 0x18 ∧ t.est = 0x40 ∧ t.ic = 6 := by decide

theorem test_rvbReg : let t := run 0x120F0080 (start [(2, 7), (3, 0xABCDEF01)])
    reg t 3 = 0xABCDEF80 ∧ t.est = 0x440 ∧ t.ic = 6 := by decide

theorem test_bnzReg_absolute_procedural : let t := run 0x530880C0 (start [(2, 1), (3, 0x40)])
    t.ic = 0x40 ∧ t.crp = 6 := by decide

theorem test_bnmReg_byte : let t := run 0x400940C0 (start [(2, 0x17F), (3, 0xFFFFFFFD)])
    t.ic = 2 ∧ t.crp = 0 := by decide

theorem test_blReg_not_taken : let t := run 0x5109C0C0 (start [(2, 2), (3, 9)])
    t.ic = 6 ∧ t.crp = 0 := by decide

theorem test_bnloReg_half : let t := run 0x480A80C0 (start [(2, 0xFFFF), (3, 4)])
    t.ic = 9 := by decide

theorem test_bnoReg_not_taken : let t := run 0x500B00C0 (start [(2, 0xFFFFFFFF), (3, 4)])
    t.ic = 6 := by decide

theorem test_waitReg : let t := run 0x40038080 (start [(2, 3)])
    t.waiting = true ∧ t.waitTimer = 3 ∧ t.ic = 5 := by decide

theorem test_movDspReg : let t := run 0xD9090001 wide
    t.dsp = [0, 0, 0x11111111, 0x22222222] ∧ t.ic = 6 := by decide

theorem test_movRegDsp_wraps : let t := run 0xD900C003 { wide with dsp := [7, 0, 0, 9] }
    reg t 0 = 0x700000009 ∧ t.ic = 6 := by decide

theorem test_movRegFpr : let t := run 0xD90F8001 wide
    reg t 3 = 0x3FF8000000000000 ∧ t.ic = 6 := by decide

theorem test_movFprReg : let t := run 0xD90FC001 wide
    t.fpr[3]? = some 0x2222222211111111 ∧ t.ic = 6 := by decide

theorem test_movSpcReg_bank : let t := run 0xC13C8001 wide
    t.bank = 1 ∧ reg t 0 = 4 ∧ t.ic = 6 := by decide

theorem test_fextD : let t := run 0x19070000 wide
    t.fpr[1]? = some (0x3FFFF8#1024 <<< 232) ∧ t.est = 0 ∧ t.ic = 6 := by decide

theorem test_fextQ : let t := run 0x210B0000 wide
    t.fpr[2]? = some (0xC0000#1024 <<< 236) ∧ t.est = 0x400 ∧ t.ic = 6 := by decide

theorem test_fext1 : let t := run 0x29030000 wide
    t.fpr[0]? = some (0x3FFFF#1024 <<< 236) ∧ t.est = 0 ∧ t.ic = 6 := by decide

theorem test_fsqzW : let t := run 0x11034000 wide
    t.fpr[0]? = some (0x3FFFF#1024 <<< 236 ||| 0x3F800000) ∧ t.est = 0 ∧ t.ic = 6 := by decide

theorem test_fsqzD : let t := run 0x19034000 wide
    t.fpr[0]? = some (0x3FFFF#1024 <<< 236 ||| 0x3FF0000000000000) ∧ t.est = 0 ∧ t.ic = 6 := by decide

theorem test_fsqzQ : let t := run 0x21034000 wide
    t.fpr[0]? = some (0x3FFFF#1024 <<< 236 ||| 0x3FFF#1024 <<< 112) ∧ t.est = 0 ∧ t.ic = 6 := by decide

theorem test_fsqz1 : let t := run 0x29034000 wide
    t.fpr[0]? = some (0x3FFFF#1024 <<< 236) ∧ t.est = 0 ∧ t.ic = 6 := by decide

/-! ### Words that are no instruction, events, boundaries -/

theorem test_invalid_word_potent : let t := run 0x81000000 { start [] with scr := 5, etb := 0x40 }
    t.exc = 4 ∧ t.exi = 0x81000000 ∧ t.erp = 6 ∧ t.ic = 0x40 ∧ t.scr = 1 := by decide

theorem test_interrupt_entry : let t := after (step { start [] with scr := 8, itb := 0x80, irqPending := true })
    t.irp = 5 ∧ t.ic = 0x81 ∧ t.savedI = some true ∧ t.scr = 1 ∧ t.irqPending = false := by decide

theorem test_nmi_entry :
    let t := after (step { start [] with scr := 12, etb := 0x80, nmiPending := true, lastWord := 9 })
    t.nrp = 5 ∧ t.ic = 0x81 ∧ t.savedN = some ⟨false, true, true⟩ ∧ t.scr = 1 ∧ t.exi = 9 ∧ t.exc = 1 := by decide

theorem test_debug_entry : let t := run 0x100C0080 { start [(2, 5), (3, 7)] with scr := 7, etb := 0x80 }
    reg t 3 = 12 ∧ t.erp = 6 ∧ t.ic = 0x80 ∧ t.exc = 2 ∧ t.exi = 0x100C0080 ∧ t.scr = 3 := by decide

theorem test_data_bus_error :
    let t := run 0x900C0002 { start [(2, 0x1A)] with refused := [⟨0x1C, 0x1C, .store⟩], scr := 5, etb := 0x40 }
    t.exc = 0x200000 ∧ t.exi = 0x900C0002 ∧ t.errorLine = true ∧ t.erp = 6 ∧ t.ic = 0x40 := by decide

theorem test_fetch_bus_error : let t := after (step { start [] with refused := [⟨0x14, 0x14, .fetch⟩] })
    t.exc = 0x100000 ∧ t.errorState = true ∧ t.errorLine = true ∧ t.ic = 5 := by decide

theorem test_reset_leaves_error_state :
    let t := after (step { start [] with errorState := true, inputs := [[.reset]], scr := 0, est := 9, exm := 6 })
    t.errorState = false ∧ t.ic = 0 ∧ t.scr = 1 ∧ t.est = 0 ∧ t.exm = 0 := by decide

theorem test_nmi_before_debug_entry :
    let t := run 0x100C0080 { start [(2, 5), (3, 7)] with scr := 7, etb := 0x80, inputs := [[.nmi]] }
    reg t 3 = 12 ∧ t.nrp = 6 ∧ t.erp = 0 ∧ t.ic = 0x80 ∧ t.exc = 3 ∧ t.scr = 3 := by decide

theorem test_bank_before_width : let t := run 0xE13C8001 { start [(1, 0x10)] with scr := 5, etb := 0x40 }
    t.exc = 0x10 ∧ t.ic = 0x40 ∧ t.bank = 0 := by decide

/-- FRND of the largest number of the format E = 5, M = 24, which is no integer: infinity, overflow and inexact
(log 47; by hand from R288, R293 and R291). -/
theorem test_frnd_overflow :
    let s := start [(3, 0x1EFFFFFF)]
    let t := run 0x010E4000 { s with cfg := { s.cfg with fpuType := 9, fp := ⟨5, 24⟩ } }
    reg t 3 = 0x1F000000 ∧ t.exc = 0xA000 ∧ t.est = 0x2108 := by decide

/-- Two entries of the implementation's own: spc27 read-only in user mode, spc28 in both modes. -/
def ownEntries (s : State) : State :=
  { s with
    cfg := { s.cfg with numSpc := 29, spcUserReadOnly := [27], spcReadOnly := [28] }, spcExtra := [1, 2] }

theorem test_events_in_order : let t := after (step { start [] with inputs := [[.irq, .reset, .nmi]] })
    t.irqPending = false ∧ t.nmiPending = false ∧ t.nrp = 0 ∧ t.exc = 1 ∧ t.inputs = [] := by decide

/-- Leaving out `MOV_H reg, reg`, every word of byte mode, `ADD_W` alone or `BZ_B` is not legal; leaving out MUL, FADD,
the 64-bit ADD, RET, NAND at every mode, or AND mode by mode is. -/
theorem test_regularity :
    ([[(0xFFC3C000, 0xC9000000)], [(0x38000000, 0)], [(0xFD03C000, 0x10000000)], [(0xFC03C000, 0x40004000)]].all
      fun l => !{ Config.reference with lacking := l }.legal) = true
    ∧ { Config.reference with
        lacking := [(0xC103C000, 0x00008000), (0xC103C000, 0x01000000), (0xF903C000, 0x18000000),
          (0xFC03C000, 0x40034000), (0xC103C000, 0x00020000), (0xF903C000, 0x0001C000), (0xF903C000, 0x0801C000),
          (0xF903C000, 0x1001C000)] }.legal = true := by decide

theorem test_pause_counts_down : let t := after (step { start [] with waiting := true, waitTimer := 3 })
    t.waiting = true ∧ t.waitTimer = 2 ∧ t.ic = 5 := by decide

theorem test_agent_write_clears_reservation :
    let t := after (step { start [] with reservation := some (0x100, 4), inputs := [[.agentWrite 0x103 7]] })
    t.reservation = none ∧ t.memRead 0x100 4 = 0x7000000 := by decide

/-! ### The hypotheses of the obligations can be met

One theorem for each obligation with hypotheses, under its name: concrete states and operands that meet them, one for
each clause, at the bounds of their ranges. -/

/-- A word at IC of a state. -/
def fetching (w : Nat) (s : State) : State := s.memWrite s.fetchAddress 4 w

/-- Whether a result is a next state. -/
def isNext (r : Result) : Bool :=
  match r with
  | .next _ => true
  | _ => false

/-- A result that is a next state has one. -/
theorem answers (r : Result) (h : isNext r = true) : ∃ t, r = .next t := by
  cases r with
  | next t => exact ⟨t, rfl⟩
  | fault f => cases h
  | refused f => cases h

/-- User mode with exceptions enabled. -/
def user : State := { start [(2, 7), (3, 8)] with scr := 4 }

/-- System mode with exceptions enabled: every unmasked exception is potent. -/
def potent : State := { start [(2, 0xFFFFFFFF), (3, 0x80000000), (4, 0)] with scr := 5 }

/-- FP operands: 1.5 at GPR 2, 2.0 at GPR 3, the largest number at GPR 4, a signaling NaN at GPR 5, the largest 32-bit
integer's neighbour at GPR 6. -/
def floats : State :=
  start [(2, 0x3FC00000), (3, 0x40000000), (4, 0x7F7FFFFF), (5, 0x7F800001), (6, 0x4EFFFFFF)]

theorem witness_decodeOfEncode : (Instr.msuImm .qsent true 63 63 0xFF).wellFormed = true
    ∧ (Instr.loadDisp .byte 0 63 0xFFF).wellFormed = true ∧ (Instr.jmpOff true true 0xFFFFF).wellFormed = true := by
  decide

theorem witness_decodedWord : decode 0x140F90A4#32 = .ok (.madImm .word false 3 2 0x64)
    ∧ (flag 0x140F90A4#32 31 && flag 0x140F90A4#32 26) = false := by decide

theorem witness_stepRunsDecoded : let s := fetching 0x120C8080 (start [(2, 3), (3, 4)])
    (s.errorState = false ∧ s.waiting = false
      ∧ s.boundary.busError .fetch (4 * s.boundary.ic.toNat) 4 = false
      ∧ decode (BitVec.ofNat 32 (s.boundary.memRead (4 * s.boundary.ic.toNat) 4)) = .ok (.mulReg .word true 3 2))
    ∧ ∃ t, exec (.mulReg .word true 3 2)
        { s.boundary with ir := BitVec.ofNat 32 (s.boundary.memRead (4 * s.boundary.ic.toNat) 4) } = .next t :=
  have h : ∀ u, ∃ t, exec (.mulReg .word true 3 2) u = .next t := fun _ => ⟨_, rfl⟩
  ⟨by decide, h _⟩

theorem witness_invalidWord : let s := fetching 0x81000000 (start [])
    s.errorState = false ∧ s.waiting = false
      ∧ s.boundary.busError .fetch (4 * s.boundary.ic.toNat) 4 = false
      ∧ decode (BitVec.ofNat 32 (s.boundary.memRead (4 * s.boundary.ic.toNat) 4)) = .error .transferNotLoad := by decide

theorem witness_placedWord : State.reset.memoryOk ∧ 2 ≤ State.reset.cfg.physAddrWidth
    ∧ decodeTableWord 32 0x140F90A4 = some (.madImm .word false 3 2 0x64) := by decide

theorem witness_stepKeeps :
    let s := { State.reset with
      cfg := { Config.reference with gprWidth := 8, numGpr := 3, numSpc := 28 }, banks := [[255, 0, 1]],
      mem := [(0, 2)], spcExtra := [9] }
    (s.memoryOk ∧ s.registersOk ∧ s.counterOk ∧ s.hiddenOk ∧ s.reservationOk) ∧ ∃ t, step s = .next t := by
  refine ⟨⟨by decide, ⟨by decide, by decide, by decide, ?_, by decide, fun _ h => (nomatch h), by decide,
    fun _ h => (nomatch h), by decide⟩, by decide, by decide, fun _ _ h => nomatch h⟩, answers _ (by decide)⟩
  intro f hf
  rw [List.mem_singleton.1 hf]
  refine ⟨by decide, fun r hr => ?_⟩
  simp only [List.mem_cons, List.not_mem_nil, or_false] at hr
  rcases hr with rfl | rfl | rfl <;> decide

theorem witness_resetRestarts :
    (let s := { start [] with inputs := [[.reset]] }; s.inputs = [.reset] :: [] ∧ ∃ u, EventsMeet s u)
    ∧ (let s := { start [] with inputs := [[.reset]], waiting := true, waitTimer := 3 };
      s.inputs = [.reset] :: [] ∧ ∃ u, EventsMeet s u)
    ∧ (let s := { start [] with inputs := [[.reset], [.irq]], errorState := true, errorLine := true };
      s.inputs = [.reset] :: [[.irq]] ∧ ∃ u, EventsMeet s u) :=
  ⟨⟨rfl, (answers (fetchAndRun _) (by decide)).imp fun _ h => .inr (.inr ⟨rfl, rfl, h⟩)⟩,
    ⟨rfl, _, .inr (.inl ⟨rfl, rfl, rfl⟩)⟩, ⟨rfl, _, .inl ⟨rfl, rfl⟩⟩⟩

theorem witness_resetRestarts_events : (∀ e : Event,
      let s := { start [] with inputs := [[e]], reservation := some (0x100, 4), waiting := true, waitTimer := 3 }
      s.memoryOk ∧ s.errorState = false ∧ s.inputs = [e] :: [] ∧ ∃ u, EventsMeet s u)
    ∧ (let s := { wide with inputs := [[.dspException 3]] };
      s.memoryOk ∧ s.errorState = false ∧ s.inputs = [.dspException 3] :: [] ∧ (∃ u, EventsMeet s u)
        ∧ s.cfg.hasDsp = true)
    ∧ (let s := { wide with inputs := [[.dspWrite 3 7]], waiting := true };
      s.memoryOk ∧ s.errorState = false ∧ s.inputs = [.dspWrite 3 7] :: [] ∧ (∃ u, EventsMeet s u)
        ∧ 3 < s.pauseCycle.dsp.length)
    ∧ (let s := { start [] with inputs := [[.nmi, .reset, .irq], []], errorState := true, errorLine := true };
      s.memoryOk ∧ Event.reset ∈ [Event.nmi, .reset, .irq] ∧ s.inputs = [.nmi, .reset, .irq] :: [[]]
        ∧ ∃ u, EventsMeet s u)
    ∧ ((start []).errorState = false ∧ (start []).inputs = [] ∧ ∃ u, EventsMeet (start []) u) :=
  ⟨fun _ => ⟨⟨rfl, rfl⟩, rfl, rfl, _, .inr (.inl ⟨rfl, rfl, rfl⟩)⟩,
    ⟨⟨rfl, rfl⟩, rfl, rfl, (answers (fetchAndRun _) (by decide)).imp fun _ h => .inr (.inr ⟨rfl, rfl, h⟩), rfl⟩,
    ⟨⟨rfl, rfl⟩, rfl, rfl, ⟨_, .inr (.inl ⟨rfl, rfl, rfl⟩)⟩, by decide⟩,
    ⟨⟨rfl, rfl⟩, by decide, rfl, _, .inl ⟨rfl, rfl⟩⟩,
    rfl, rfl, (answers (fetchAndRun _) (by decide)).imp fun _ h => .inr (.inr ⟨rfl, rfl, h⟩)⟩

theorem witness_fileRead : 0 < 1 ∧ 1023 < 1024 := by decide

theorem witness_fileWrite : ([1, 2, 3, 4] : List RegBits) ≠ [] ∧ 0 < 8 ∧ 8 ≤ 1024
    ∧ partsNeeded 8 32 ≤ ([1, 2, 3, 4] : List RegBits).length
    ∧ partsNeeded 1024 1024 ≤ ([1] : List RegBits).length := by decide

theorem witness_storedBytes : let s := { State.reset with cfg := { Config.reference with physAddrWidth := 2 } }
    s.memoryOk ∧ 4 ≤ addressSpace s.cfg ∧ 0xFFFFFFFF < 2 ^ (8 * 4) ∧ inBytes s.cfg 3 3 2 = false := by decide

theorem witness_onlyStores : let s := start [(2, 0x100)]
    (∃ t, exec (.storeReg .word 3 2) s = .next t)
      ∧ (∀ addr n, storeTarget (.storeReg .word 3 2) s = some (addr, n) → inBytes s.cfg addr n 0x104 = false)
      ∧ ∀ addr n, storeTarget (.addReg .word true 3 2) s = some (addr, n) → inBytes s.cfg addr n 0 = false := by
  refine ⟨⟨_, rfl⟩, ?_, ?_⟩
  · intro addr n h
    cases h
    decide
  · intro addr n h
    cases h

theorem witness_onlyMov : (∃ t, exec (.jmpOff true true 9) (start []) = .next t)
    ∧ ∀ m d x, Instr.jmpOff true true 9 ≠ .movSpcReg m d x :=
  ⟨⟨_, rfl⟩, fun _ _ _ h => nomatch h⟩

theorem witness_keepEst : (Instr.jmpOff true true 9).wellFormed = true ∧ field (encode (.jmpOff true true 9)) 30 2 = 1
    ∧ field (encode (.loadDisp .half 3 2 5)) 30 2 ≠ 0 ∧ ∃ t, exec (.jmpOff true true 9) (start []) = .next t :=
  ⟨by decide, by decide, by decide, _, rfl⟩

theorem witness_userMode : user.systemMode = false ∧ ∃ t, exec (.reti false) user = .next t := ⟨by decide, _, rfl⟩

theorem witness_trapsPrecise : let t := after (exec (.rete false) user)
    exec (.rete false) user = .next t ∧ t.savedE = some ⟨false, true, false⟩ ∧ user.savedE ≠ some ⟨false, true, false⟩ :=
  ⟨rfl, by decide, by decide⟩

theorem witness_boundary :
    ({ start [] with waiting := true }.waiting = true ∧ { start [] with errorState := true }.errorState = true)
    ∧ ((start []).waiting = false ∧ (start []).errorState = false ∧ { start [] with nmiPending := true }.nmiPending = true)
    ∧ ({ start [] with debugDue := true }.nmiPending = false ∧ { start [] with debugDue := true }.debugDue = true)
    ∧ (let s := { start [] with scr := 4, exc := 1 <<< 63 };
        s.scr.getLsbD 2 = true ∧ ∃ n, n < 64 ∧ n ≠ 1 ∧ s.exc.getLsbD n = true ∧ s.exm.getLsbD n = false)
    ∧ (let s := { start [] with scr := 12, exc := 2, irqPending := true };
        s.nmiPending = false ∧ s.debugDue = false ∧ s.irqPending = true ∧ s.scr.getLsbD 3 = true
          ∧ ∀ n, n < 64 → ¬(n ≠ 1 ∧ s.exc.getLsbD n = true ∧ s.exm.getLsbD n = false))
    ∧ (let s := { start [] with scr := 4, exc := 1, exm := 1, irqPending := true };
        s.scr.getLsbD 3 = false ∧ ∀ n, n < 64 → ¬(n ≠ 1 ∧ s.exc.getLsbD n = true ∧ s.exm.getLsbD n = false)) := by
  refine ⟨by decide, by decide, by decide, ⟨by decide, 63, by decide⟩, by decide, by decide⟩

theorem witness_boundarySettles : ∃ t, step (start []) = .next t := answers _ (by decide)

theorem witness_returns : (start []).lacks = false ∧ (start []).systemMode = true := by decide

theorem witness_systemResources :
    (user.systemMode = false ∧ (19 < user.spcFile.length ∧ 0 < partsNeeded user.cfg.spcWidth (MMode.width .word)
        ∧ (19 + 0) % user.spcFile.length = 19)
      ∧ 26 < user.spcFile.length ∧ 1 < partsNeeded user.cfg.spcWidth (MMode.width .dword)
        ∧ (26 + 1) % user.spcFile.length = 0)
    ∧ (let s := start [(3, 0x11)];
      (GprReady s (MMode.width .word) [3] ∧ s.hasTransfer .word = true
        ∧ partsNeeded s.cfg.spcWidth (MMode.width .word) ≤ s.spcFile.length)
        ∧ s.systemMode = true ∧ 15 < s.spcFile.length
        ∧ s.banks.length ≤ (s.writeSpc 15 (s.readGpr 3 (MMode.width .word))).bank)
    ∧ (let s := start [];
      GprReady s (MMode.width .dword) [3] ∧ s.hasTransfer .dword = true
        ∧ partsNeeded s.cfg.spcWidth (MMode.width .dword) ≤ s.spcFile.length ∧ s.systemMode = true
        ∧ (1 < s.spcFile.length ∧ (1 + 0) % s.spcFile.length = 1
          ∧ (s.writeSpc 1 (s.readGpr 3 (MMode.width .dword))).bank < s.banks.length)
        ∧ 26 < s.spcFile.length ∧ (26 + 1) % s.spcFile.length = 0
          ∧ (s.writeSpc 26 (s.readGpr 3 (MMode.width .dword))).bank < s.banks.length)
    ∧ (let s := ownEntries (start []);
      GprReady s (MMode.width .word) [3] ∧ s.hasTransfer .word = true
        ∧ partsNeeded s.cfg.spcWidth (MMode.width .word) ≤ s.spcFile.length ∧ s.systemMode = true
        ∧ 28 < s.spcFile.length ∧ (28 + 0) % s.spcFile.length = 28 ∧ 28 ∈ s.cfg.spcReadOnly
        ∧ (s.writeSpc 28 (s.readGpr 3 (MMode.width .word))).bank < s.banks.length)
    ∧ (let s := ownEntries user;
      s.systemMode = false ∧ 27 < s.spcFile.length ∧ (27 + 0) % s.spcFile.length = 27 ∧ 27 ∈ s.cfg.spcUserReadOnly
        ∧ (26 + 1) % s.spcFile.length = 27)
    ∧ (GprReady user (MMode.width .word) [31] ∧ user.hasTransfer .word = true ∧ user.spcFile.length ≤ 27) := by
  unfold GprReady
  decide

/-- Three 8-bit GPRs, one 8-bit DSP register, and transfers of up to 1024 bits. -/
def small : State :=
  { State.reset with
    cfg := { Config.reference with
      gprWidth := 8, numGpr := 3, maxTransfer := .qsent, hasDsp := true, dspMode := .byte, numDsp := 1 }
    banks := [[0, 0, 0]]
    dsp := [0] }

theorem witness_lacking : ((start []).hasMode .dword = false ∧ (start []).hasTransfer .quad = false)
    ∧ ({ Config.reference with hasMul := false }.hasMul = false
      ∧ { Config.reference with hasDiv := false }.hasDiv = false
      ∧ { Config.reference with fpuType := 0 }.fpuType = 0)
    ∧ ((.fextH 0, .fsqzH 0, .half) ∈ formatForms 0 ∧ MMode.half ∉ { Config.reference with fpFormats := [] }.fpFormats
      ∧ (.fextD 63, .fsqzD 63, .dword) ∈ formatForms 63 ∧ (start []).cfg.fp.width < MMode.width .dword)
    ∧ ((start []).systemMode = true
      ∧ ((start []).writeSpc 26 ((start []).readGpr 3 (MMode.width .quad))).bank < (start []).banks.length)
    ∧ (let s := { user with cfg := { Config.reference with lacking := [(0, 0)] } };
      s.lacks = true
        ∧ (∀ j, j < partsNeeded s.cfg.spcWidth (MMode.width .word)
          → userReadOnly s.cfg ((20 + j) % s.spcFile.length) = false)
        ∧ (s.writeSpc 20 (s.readGpr 3 (MMode.width .word))).bank < s.banks.length
        ∧ (Instr.rete true).wellFormed = true ∧ { s with scr := 5 }.systemMode = true)
    ∧ (let s := small;
      TooWide s.gpr s.vw (MMode.width .word) ∧ TooWide s.gpr s.vw (2 * MMode.width .half)
        ∧ TooWide s.fpFile s.fpPart s.cfg.fp.width ∧ TooWide s.intFile s.intPart (MMode.width .word)
        ∧ TooWide s.dsp s.dspWidth (MMode.width .dword) ∧ (s.hasTransfer .qsent = true ∧ s.systemMode = true
        ∧ TooWide s.spcFile s.cfg.spcWidth (MMode.width .qsent)
        ∧ (s.writeSpc 20 (s.readGpr 0 (MMode.width .qsent))).bank < s.banks.length))
    ∧ (let s := { small with cfg := { small.cfg with hasFpr := true, fprWidth := 8 }, fpr := [0] };
      TooWide s.fpFile s.fpPart 16 ∧ TooWide s.fpr s.cfg.fprWidth (MMode.width .half))
    ∧ ((∀ m d x, Instr.rete true ≠ .movSpcReg m d x) ∧ ∀ m d x, Instr.fsqr 0 ≠ .movSpcReg m d x)
    ∧ ∀ p, Instr.fsqr 0 ≠ .rete p ∧ Instr.fsqr 0 ≠ .retn p :=
  ⟨by decide, by decide, by decide, by decide, by decide, by unfold TooWide; decide, by unfold TooWide; decide,
    ⟨fun _ _ _ h => (nomatch h), fun _ _ _ h => (nomatch h)⟩,
    fun _ => ⟨fun h => (nomatch h), fun h => (nomatch h)⟩⟩

theorem witness_missing : (GprReady (start []) 32 [] ∧ GprReady (start []) (2 * MMode.width .word) []
      ∧ (start []).hasMode .word = true ∧ (start []).hasTransfer .word = true ∧ (start []).systemMode = true
      ∧ (start []).cfg.hasMul = true ∧ (start []).cfg.hasDiv = true
      ∧ (∃ q ∈ [31, 32], (start []).gpr.length ≤ q) ∧ ∃ q ∈ [0, 1, 32], (start []).gpr.length ≤ q)
    ∧ (GprReady (start []) 0 [] ∧ (start []).gpr.length ≤ 32)
    ∧ (FpReady (start []) (max 32 16) [] ∧ ∃ q ∈ [31, 32], (start []).fpFile.length ≤ q)
    ∧ (FpReady wide (max 256 16) [] ∧ ∃ q ∈ [4], wide.fpFile.length ≤ q)
    ∧ (FpReady wide wide.cfg.fp.width [] ∧ wide.hasMode .quad = true
      ∧ partsNeeded wide.intPart (MMode.width .quad) ≤ wide.intFile.length ∧ wide.fpFile.length ≤ 4
      ∧ wide.intFile.length ≤ 4)
    ∧ ((.fextH 4, .fsqzH 4, .half) ∈ formatForms 4 ∧ .half ∈ wide.cfg.fpFormats ∧ MMode.width .half ≤ wide.cfg.fp.width)
    ∧ (partsNeeded (start []).cfg.spcWidth (MMode.width .word) ≤ (start []).spcFile.length
      ∧ (start []).spcFile.length ≤ 27)
    ∧ ((start []).dsp = [] ∧ (start []).dsp.length ≤ 0 ∧ (start []).fpr = [] ∧ (start []).fpr.length ≤ 0)
    ∧ GprReady wide (MMode.width .quad) [] ∧ wide.hasTransfer .quad = true
      ∧ (partsNeeded wide.dspWidth (MMode.width .quad) ≤ wide.dsp.length ∧ wide.dsp.length ≤ 4)
      ∧ partsNeeded wide.cfg.fprWidth (MMode.width .quad) ≤ wide.fpr.length ∧ wide.fpr.length ≤ 4 := by
  unfold GprReady FpReady
  exact ⟨by decide, by decide, by decide, by decide, by decide, by decide, by decide, by decide, by decide⟩

theorem witness_missing_user : GprReady user 32 [] ∧ user.hasTransfer .word = true ∧ user.systemMode = false
    ∧ (∀ j, j < partsNeeded user.cfg.spcWidth (MMode.width .word) →
      userReadOnly user.cfg ((26 + j) % user.spcFile.length) = false)
    ∧ user.gpr.length ≤ 32 := by
  unfold GprReady
  decide

theorem witness_dataBusError :
    let s := { start [(2, 0xFFFFFFFE)] with
      refused := [⟨1, 1, .load⟩, ⟨1, 1, .store⟩], reservation := some (0xFFFFFFFE, 4) }
    let a : Addressing := .register 2 .none
    GprReady s 32 [31, 2] ∧ s.hasTransfer .word = true ∧ s.busError .load (a.address .word s) (MMode.bytes .word) = true
      ∧ s.busError .store (a.address .word s) (MMode.bytes .word) = true
      ∧ s.reservation = some (a.address .word s, MMode.bytes .word) := by
  unfold GprReady
  decide

theorem witness_fetchBusError :
    (let s := { start [] with refused := [⟨0x17, 0x17, .fetch⟩] };
      s.errorState = false ∧ s.waiting = false
        ∧ s.boundary.busError .fetch (4 * s.boundary.ic.toNat) 4 = true ∧ s.boundary.potent .iSystemBusError = false)
    ∧ (let s := { potent with refused := [⟨0x17, 0x17, .fetch⟩] };
      s.errorState = false ∧ s.waiting = false
        ∧ s.boundary.busError .fetch (4 * s.boundary.ic.toNat) 4 = true ∧ s.boundary.potent .iSystemBusError = true)
    ∧ (let s := { start [] with errorState := true, errorLine := true };
      s.errorState = true ∧ s.inputs = []) := by decide

theorem witness_onlyUndefined :
    (let s := { start [] with errorState := true, inputs := [[.irq]] };
      s.errorState = true ∧ ∀ es ∈ s.inputs.head?, Event.reset ∉ es)
    ∧ (start []).errorState = false
    ∧ ∃ es ∈ { start [] with errorState := true, inputs := [[.irq, .reset]] }.inputs.head?, Event.reset ∈ es :=
  ⟨by decide, by decide, [.irq, .reset], by decide⟩

theorem witness_waitStarts : (start []).lacks = false ∧ 31 < (start []).gpr.length := by decide

theorem witness_pausedCycle : let s := { start [] with waiting := true }
    (s.inputs = [] ∧ s.errorState = false ∧ s.waiting = true)
      ∧ ({ s with nmiPending := true }.nmiPending = true ∧ { s with irqPending := true, scr := 9 }.scr.getLsbD 3 = true
        ∧ { s with waitTimer := 1 }.waitTimer = 1)
      ∧ (¬(s.nmiPending = true ∨ s.irqPending = true ∧ s.scr.getLsbD 3 = true) ∧ s.waitTimer = 0)
      ∧ 2 ≤ { s with waitTimer := 2 }.waitTimer := by decide

theorem witness_definitePause : let s := { start [] with waiting := true, waitTimer := 0 + 1 }
    s.inputs = [] ∧ s.errorState = false ∧ s.waiting = true ∧ s.waitTimer = 0 + 1 ∧ s.nmiPending = false
      ∧ (s.irqPending && s.interruptsEnabled) = false ∧ s.debugMode = false ∧ s.debugDue = false
      ∧ s.exceptionPending = false := by decide

theorem witness_transfers : let s := { start [(30, 0xFFFFFFFF), (31, 0xFFFFFFFF)] with reservation := some (6, 8) }
    let a : Addressing := .indexed 30 31 .preInc
    GprReady s 64 [31, 30, 31] ∧ s.hasTransfer .dword = true
      ∧ s.busError .load (a.address .dword s) (MMode.bytes .dword) = false
      ∧ s.busError .store (a.address .dword s) (MMode.bytes .dword) = false
      ∧ s.reservation = some (a.address .dword s, MMode.bytes .dword)
      ∧ s.reservation ≠ some (Addressing.address (.register 30 .none) .dword s, MMode.bytes .dword) := by
  unfold GprReady
  decide

theorem witness_registerMoves : wide.cfg.inRange = true ∧ wide.hasTransfer .sent = true ∧ GprReady wide 256 [3]
    ∧ 3 < wide.gpr.length
    ∧ (26 < wide.spcFile.length ∧ partsNeeded wide.cfg.spcWidth (MMode.width .sent) ≤ wide.spcFile.length)
    ∧ (wide.hasTransfer .quad = true ∧ 3 < wide.dsp.length
      ∧ partsNeeded wide.dspWidth (MMode.width .quad) ≤ wide.dsp.length)
    ∧ wide.cfg.hasFpr = true ∧ 3 < wide.fpr.length
      ∧ partsNeeded wide.cfg.fprWidth (MMode.width .sent) ≤ wide.fpr.length := by
  unfold GprReady
  decide

/-- What MoveToSpecialRegisterCompletes asks of a state. -/
def specialReady (s : State) (m : MMode) (d x : Nat) : Prop :=
  s.cfg.inRange = true ∧ GprReady s m.width [x] ∧ s.hasTransfer m = true ∧ partsNeeded 32 m.width ≤ s.spcFile.length
    ∧ d < s.spcFile.length
    ∧ (∀ j, j < partsNeeded 32 m.width → (if s.systemMode then 2 else 20) ≤ (d + j) % s.spcFile.length
      ∧ (d + j) % s.spcFile.length ∉ s.cfg.spcReadOnly
      ∧ (s.systemMode = false → (d + j) % s.spcFile.length ∉ s.cfg.spcUserReadOnly))
    ∧ (s.writeSpc d (s.readGpr x m.width)).bank < s.banks.length

theorem witness_moveToSpecial : specialReady (start [(31, 0x12345678)]) .dword 13 31
    ∧ specialReady (start []) .word 2 31 ∧ specialReady user .dword 25 3 ∧ specialReady user .word 20 3
    ∧ specialReady { user with
        cfg := { Config.reference with numSpc := 29, spcUserReadOnly := [28] }, spcExtra := [0, 0] } .word 27 3
    ∧ specialReady { start [] with
        cfg := { Config.reference with numSpc := 29, spcUserReadOnly := [28] }, spcExtra := [0, 0] } .dword 27 3 := by
  unfold specialReady GprReady
  exact ⟨by decide, by decide, by decide, by decide, by decide, by decide⟩

theorem witness_addSub : let s := start [(2, 0x7FFFFFFF), (3, 1)]
    GprReady s 32 [3, 2] ∧ s.hasMode .word = true
      ∧ (s.readGpr 3 (MMode.width .word)).toInt + (s.readGpr 2 (MMode.width .word)).toInt = 2 ^ 31
      ∧ s.potent .overflow = false := by
  unfold GprReady
  decide

theorem witness_products : let s := start [(2, 0xFFFFFFFF), (31, 0x80000000)]
    s.hasMode .word = true ∧ s.cfg.hasMul = true ∧ GprReady s (2 * MMode.width .word) [31, 2]
      ∧ GprReady s (2 * MMode.width .word) [31, 2, 0] := by
  unfold GprReady
  decide

theorem witness_div : let s := start [(2, 0), (31, 0x80000000), (4, 0xFFFFFFFF)]
    GprReady s 32 [31, 2] ∧ GprReady s 32 [31, 4] ∧ s.hasMode .word = true ∧ s.cfg.hasDiv = true
      ∧ NonePotent s [.divisionByZero] ∧ NonePotent s [.overflow] ∧ NonePotent s []
      ∧ (s.readGpr 2 (MMode.width .word)).toInt = 0 ∧ (s.readGpr 4 (MMode.width .word)).toInt = -1
      ∧ (s.readGpr 31 (MMode.width .word)).toInt = -2 ^ 31 := by
  unfold GprReady NonePotent
  decide

theorem witness_shifts : let s := start [(2, 1), (31, 0x40000000)]
    GprReady s 32 [31, 2] ∧ GprReady s 32 [31] ∧ s.hasMode .word = true ∧ s.potent .overflow = false := by
  unfold GprReady
  decide

theorem witness_logic : GprReady (start []) 8 [31, 0] ∧ (start []).hasMode .byte = true := by
  unfold GprReady
  decide

theorem witness_bits : let s := start [(2, 31), (3, 32)]
    (GprReady s 32 [31, 2] ∧ s.hasMode .word = true)
      ∧ ((s.readGpr 2 (MMode.width .word)).toNat < 32 ∧ (s.readGpr 2 (MMode.width .word)).toNat < s.cfg.aluMode.width)
      ∧ (32 ≤ (s.readGpr 3 (MMode.width .word)).toNat ∧ s.potent .invalidOperation = false)
      ∧ potent.potent .invalidOperation = true ∧ 32 ≤ (potent.readGpr 2 (MMode.width .word)).toNat := by
  unfold GprReady
  decide

theorem witness_potentResult :
    (GprReady potent 32 [3, 2] ∧ potent.hasMode .word = true ∧ potent.potent .overflow = true)
    ∧ (let sum := (potent.readGpr 3 (MMode.width .word)).toInt + (potent.readGpr 2 (MMode.width .word)).toInt;
      sum < -2 ^ (MMode.width .word - 1))
    ∧ ((potent.readGpr 4 (MMode.width .word)).toNat : Int) - ((potent.readGpr 2 (MMode.width .word)).toNat : Int) < 0
    ∧ (potent.cfg.hasDiv = true ∧ potent.potent .divisionByZero = true
      ∧ (potent.readGpr 4 (MMode.width .word)).toInt = 0)
    ∧ ((potent.readGpr 3 (MMode.width .word)).toInt = -2 ^ (MMode.width .word - 1)
      ∧ (potent.readGpr 2 (MMode.width .word)).toInt = -1)
    ∧ (BitVec.ofNat 32 ((potent.readGpr 3 (MMode.width .word)).toNat * 2 ^ 1)).msb
      ≠ (potent.readGpr 3 (MMode.width .word)).msb := by
  unfold GprReady
  decide

/-- Potent exceptions with the FP operands. -/
def traps : State := { floats with scr := 5 }

/-- A set of exceptions with a potent one. -/
def somePotent (raised : List Exc) : Bool := raised.any traps.potent

theorem witness_potentFp :
    (FpReady traps (max traps.cfg.fp.width 16) [4, 3, 2] ∧ FpReady traps (max traps.cfg.fp.width 16) [5, 31, 2])
    ∧ somePotent (raisedByFp traps false false false
        (fpRoundedResult traps traps.cfg.fp (fpMul (traps.fpValue 4) (traps.fpValue 3)))) = true
    ∧ ((fpAdd .toZero (traps.fpValue 5) (traps.fpValue 2)).isNone = true
      ∧ (fpDiv traps.cfg.fp (traps.fpValue 5) (traps.fpValue 3)).isNone = true
      ∧ (fpRem (traps.fpValue 2) (traps.fpValue 31)).isNone = true
      ∧ (fpSqrt traps.cfg.fp (traps.fpValue 5)).isNone = true ∧ (traps.fpValue 5).isSignaling = true
      ∧ somePotent (raisedByFp traps true false false { bits := 0 }) = true)
    ∧ (somePotent (raisedByFp traps false false true { bits := 0 }) = true ∧ traps.fpValue 31 = .zero false)
    ∧ ((.fextH 5, .fsqzH 5, .half) ∈ formatForms 5 ∧ .half ∈ traps.cfg.fpFormats
      ∧ MMode.width .half ≤ traps.cfg.fp.width
      ∧ isDenormal (modeFormat .half) (traps.readFp 5 (MMode.width .half)).toNat = true
      ∧ somePotent (raisedByFp traps false true false { bits := 0 }) = true)
    ∧ (FpReady traps traps.cfg.fp.width [6] ∧ traps.hasMode .word = true ∧ traps.bank < traps.banks.length
      ∧ partsNeeded traps.intPart (MMode.width .word) ≤ traps.intFile.length ∧ 6 < traps.intFile.length)
    ∧ (fpToInt traps.roundingMode (traps.fpValue 2) = some (2, true) ∧ (2 : Int) ≤ 2 ^ (MMode.width .word - 1) - 1
      ∧ somePotent [.fpInexactResult] = true)
    ∧ (fpToInt traps.roundingMode (traps.fpValue 5) = none ∧ somePotent [.fpInvalidOperation] = true)
    ∧ somePotent (raisedByFp traps false false false (roundTo traps.cfg.fp traps.roundingMode
        (.finite false (intValue false (traps.readInt 6 (MMode.width .word))).natAbs 0) false)) = true := by
  unfold FpReady
  decide

theorem witness_fpSums : FpReady floats floats.cfg.fp.width [2, 3] ∧ FpReady floats floats.cfg.fp.width [2, 3, 5]
    ∧ NonePotent floats (raisedByFp floats false false false
        (fpRoundedResult floats floats.cfg.fp (fpMul (floats.fpValue 4) (floats.fpValue 3))))
    ∧ NonePotent { floats with scr := 5 } (raisedByFp { floats with scr := 5 } false false false
        (fpRoundedResult floats floats.cfg.fp (fpMul (floats.fpValue 2) (floats.fpValue 3))))
    ∧ FpReady wide wide.cfg.fp.width [0, 3] := by
  unfold FpReady NonePotent
  decide

theorem witness_fpDivRem : FpReady floats floats.cfg.fp.width [4, 31] ∧ (floats.fpValue 31).isZero = true
    ∧ NonePotent floats [.fpDivisionByZero] ∧ NonePotent floats [.fpInvalidOperation] ∧ NonePotent floats [] := by
  unfold FpReady NonePotent
  decide

theorem witness_fpCompare : FpReady floats (max floats.cfg.fp.width 16) [2, 5] ∧ (floats.fpValue 5).isSignaling = true
    ∧ NonePotent floats [.fpInvalidOperation] := by
  unfold FpReady NonePotent
  decide

theorem witness_fpOneOperand : FpReady floats floats.cfg.fp.width [31] ∧ FpReady floats floats.cfg.fp.width [5]
    ∧ NonePotent floats [.fpInvalidOperation] ∧ NonePotent floats [.fpInexactResult] := by
  unfold FpReady NonePotent
  decide

theorem witness_fpToInteger :
    (FpReady floats floats.cfg.fp.width [6] ∧ floats.hasMode .word = true ∧ floats.bank < floats.banks.length
      ∧ partsNeeded floats.intPart 32 ≤ floats.intFile.length ∧ 6 < floats.intFile.length)
    ∧ (fpToInt floats.roundingMode (floats.fpValue 6) = some (0x7FFFFF80, false)
      ∧ (0x7FFFFF80 : Int) ≤ 2 ^ 31 - 1 ∧ NonePotent floats ([] ++ []))
    ∧ (fpToInt floats.roundingMode (floats.fpValue 5) = none ∧ NonePotent floats [.fpInvalidOperation])
    ∧ (FpReady wide wide.cfg.fp.width [1] ∧ wide.bank < wide.banks.length
      ∧ partsNeeded wide.intPart 256 ≤ wide.intFile.length) := by
  unfold FpReady NonePotent
  decide

theorem witness_integerToFp : FpReady floats floats.cfg.fp.width [31] ∧ floats.hasMode .word = true
    ∧ partsNeeded floats.intPart 32 ≤ floats.intFile.length ∧ 31 < floats.intFile.length
    ∧ NonePotent floats [.fpInexactResult] := by
  unfold FpReady NonePotent
  decide

theorem witness_fpFormats : FpReady wide wide.cfg.fp.width [3]
    ∧ (.half ∈ wide.cfg.fpFormats ∧ .word ∈ wide.cfg.fpFormats ∧ .dword ∈ wide.cfg.fpFormats
      ∧ .quad ∈ wide.cfg.fpFormats ∧ .sent ∈ wide.cfg.fpFormats)
    ∧ MMode.width .sent ≤ wide.cfg.fp.width ∧ NonePotent wide [.fpInexactResult] := by
  unfold FpReady NonePotent
  decide

theorem witness_fpExact : ((FpVal.zero true).isNumber = true ∧ (FpVal.finite true 1 0).isNumber = true)
    ∧ ((FpVal.finite true 1 0).toRat ≠ 0 ∧ (FpVal.finite true 1 0).toRat < 0 ∧ (FpVal.zero true).toRat = 0)
    ∧ (FpVal.nan true).isNan = true ∧ (FpVal.nan false).isNan = true :=
  ⟨by decide, by norm_num [FpVal.toRat], by decide⟩

theorem witness_rounding : ({ start [] with ucr := 0xFFFFFDFF }.ucr.extractLsb' 8 4 = 13#4
      ∧ (start []).ucr.extractLsb' 8 4 = 0#4)
    ∧ (StandsFor 1 (-1) false (1 / 2) ∧ StandsFor 3 (-1) true (8 / 5) ∧ (-1 : Int) < 0)
    ∧ (StandsFor 1 128 false (2 ^ 128) ∧ StandsFor (2 ^ 25) 0 true (2 ^ 25 + 1 / 2) ∧ 2 ^ (23 + 2) ≤ 2 ^ 25)
    ∧ ((roundTo ⟨8, 23⟩ .toZero (.finite true 1 128) false).overflow = true
      ∧ overflowsToInfinity .toZero true = false ∧ overflowsToInfinity .positive false = true)
    ∧ (roundTo ⟨8, 23⟩ .toZero (.finite true 1 (-150)) false).overflow = false :=
  ⟨by decide, by norm_num [StandsFor], by norm_num [StandsFor], by decide, by decide⟩

theorem witness_roundingTie : (roundAt .nearestEven false 1 (-1) false 0) = (0, true)
    ∧ |((0 : Nat) : ℚ) * 2 ^ (0 : ℤ) - ((1 : Nat) : ℚ) * 2 ^ (-1 : ℤ)| * 2 = 2 ^ (0 : ℤ) := ⟨by decide, by norm_num⟩

theorem witness_representable : ((unpack ⟨8, 23⟩ 0x7F7FFFFF).isNumber = true ∧ 0x7F7FFFFF < 2 ^ FpFormat.width ⟨8, 23⟩)
    ∧ (unpack ⟨2, 1⟩ 1).isNumber = true ∧ (unpack ⟨2, 1⟩ 8).isNumber = true
    ∧ (unpack ⟨5, 10⟩ 0x8001).isNumber = true ∧ 0x8001 < 2 ^ FpFormat.width ⟨5, 10⟩
    ∧ FpFormat.expBits ⟨5, 10⟩ ≤ FpFormat.expBits ⟨8, 23⟩ ∧ FpFormat.manBits ⟨5, 10⟩ ≤ FpFormat.manBits ⟨8, 23⟩ := by
  decide

theorem witness_quotient : (0 < 1 ∧ 0 < 1) ∧ (∀ f : FpFormat, 0 < 2 ^ f.width) := ⟨by decide, fun f => Nat.two_pow_pos _⟩

theorem witness_jump : (start []).cfg.icWidth ≤ 64 ∧ (start []).lacks = false ∧ 31 < (start []).gpr.length
    ∧ (Target.location 31 : Target 20).registers = [31] := by decide

theorem witness_branches : let s := start [(2, 0x80000000)]
    s.cfg.icWidth ≤ 64 ∧ GprReady s 32 [2, 31] ∧ s.hasMode .word = true
      ∧ Branch.holds .bm (s.readGpr 2 (MMode.width .word)) = true
      ∧ Branch.holds .bz (s.readGpr 2 (MMode.width .word)) = false := by
  unfold GprReady
  decide

end Sys2Proof.Tests
end

section
/-! PROOFS. The checks each instruction opens with, said once for all 144: which list of checks it is, that `exec` works
behind it, and when its first hit is UNIMPLEMENTED INSTRUCTION. -/
namespace Sys2Proof
open Sys2Proof.Machine

/-! ### The checks of every instruction -/

/-- The checks an instruction opens with, in their order (R173, R202, R232, R252, R287, R333, R355, R409). -/
def Instr.checks (i : Instr) (s : State) : List (Bool × Exc) :=
  match i with
  -- Memory transfers, by address form
  | .loadDisp m d b off | .storeDisp m d b off | .loadLockedDisp m d b off | .storeCondDisp m d b off =>
    s.memoryChecks m d (.displacement b off)
  | .loadReg m d x | .storeReg m d x | .loadLockedReg m d x | .storeCondReg m d x =>
    s.memoryChecks m d (.register x .none)
  | .loadRegPostInc m d x | .storeRegPostInc m d x | .loadLockedRegPostInc m d x | .storeCondRegPostInc m d x =>
    s.memoryChecks m d (.register x .postInc)
  | .loadRegPostDec m d x | .storeRegPostDec m d x | .loadLockedRegPostDec m d x | .storeCondRegPostDec m d x =>
    s.memoryChecks m d (.register x .postDec)
  | .loadRegPreInc m d x | .storeRegPreInc m d x | .loadLockedRegPreInc m d x | .storeCondRegPreInc m d x =>
    s.memoryChecks m d (.register x .preInc)
  | .loadRegPreDec m d x | .storeRegPreDec m d x | .loadLockedRegPreDec m d x | .storeCondRegPreDec m d x =>
    s.memoryChecks m d (.register x .preDec)
  | .loadIdx m d b x | .storeIdx m d b x | .loadLockedIdx m d b x | .storeCondIdx m d b x =>
    s.memoryChecks m d (.indexed b x .none)
  | .loadIdxPostInc m d b x | .storeIdxPostInc m d b x | .loadLockedIdxPostInc m d b x
  | .storeCondIdxPostInc m d b x => s.memoryChecks m d (.indexed b x .postInc)
  | .loadIdxPostDec m d b x | .storeIdxPostDec m d b x | .loadLockedIdxPostDec m d b x
  | .storeCondIdxPostDec m d b x => s.memoryChecks m d (.indexed b x .postDec)
  | .loadIdxPreInc m d b x | .storeIdxPreInc m d b x | .loadLockedIdxPreInc m d b x
  | .storeCondIdxPreInc m d b x => s.memoryChecks m d (.indexed b x .preInc)
  | .loadIdxPreDec m d b x | .storeIdxPreDec m d b x | .loadLockedIdxPreDec m d b x
  | .storeCondIdxPreDec m d b x => s.memoryChecks m d (.indexed b x .preDec)
  -- Inter-register transfers and load immediate
  | .movRegReg m d x => s.moveChecks m s.gpr s.vw d s.gpr s.vw x
  | .movRegSpc m d x => s.moveChecks m s.gpr s.vw d s.spcFile s.cfg.spcWidth x
  | .movSpcReg m d x => s.specialWriteChecks m d x (s.writeSpc d (s.readGpr x m.width))
  | .movRegDsp m d x => s.moveChecks m s.gpr s.vw d s.dsp s.dspWidth x
  | .movDspReg m d x => s.moveChecks m s.dsp s.dspWidth d s.gpr s.vw x
  | .movRegFpr m d x => s.moveChecks m s.gpr s.vw d s.fpr s.cfg.fprWidth x
  | .movFprReg m d x => s.moveChecks m s.fpr s.cfg.fprWidth d s.gpr s.vw x
  | .loadImm m _ d _ => s.gprChecks (s.hasTransfer m) m.width [d]
  -- Integer, shift, logic and bit instructions with two operands
  | .addReg m _ d r | .subReg m _ d r | .slReg m _ d r | .srReg m _ d r | .andReg m _ d r | .nandReg m _ d r
  | .orReg m _ d r | .xorReg m _ d r | .rlReg m d r | .rrReg m d r | .sbReg m d r | .rbReg m d r | .tbReg m d r
  | .rvbReg m d r => s.gprChecks (s.hasMode m) m.width [d, r]
  | .addImm m _ d _ | .subImm m _ d _ | .slImm m _ d _ | .srImm m _ d _ | .andImm m _ d _ | .nandImm m _ d _
  | .orImm m _ d _ | .xorImm m _ d _ | .rlImm m d _ | .rrImm m d _ | .sbImm m d _ | .rbImm m d _ | .tbImm m d _
  | .rvbImm m d _ => s.gprChecks (s.hasMode m) m.width [d]
  -- The multiplier and the divider
  | .mulReg m _ d r => s.gprChecks (s.hasMode m && s.cfg.hasMul) (2 * m.width) [d, r]
  | .mulImm m _ d _ => s.gprChecks (s.hasMode m && s.cfg.hasMul) (2 * m.width) [d]
  | .divReg m _ d r => s.gprChecks (s.hasMode m && s.cfg.hasDiv) m.width [d, r]
  | .divImm m _ d _ => s.gprChecks (s.hasMode m && s.cfg.hasDiv) m.width [d]
  | .madReg m _ d r t | .msuReg m _ d r t => s.gprChecks (s.hasMode m && s.cfg.hasMul) (2 * m.width) [d, r, t]
  | .madImm m _ d r _ | .msuImm m _ d r _ => s.gprChecks (s.hasMode m && s.cfg.hasMul) (2 * m.width) [d, r]
  -- Floating point
  | .fadd d r | .fsub d r | .fmul d r | .fdiv d r | .frem d r => s.fpChecks true s.cfg.fp.width [d, r]
  | .fcmp d r => s.fpChecks true (max s.cfg.fp.width 16) [d, r]
  | .fsqr d | .fabs d | .fneg d | .frnd d => s.fpChecks true s.cfg.fp.width [d]
  | .fmad d r t | .fmsu d r t => s.fpChecks true s.cfg.fp.width [d, r, t]
  | .ff2i m _ d | .fi2f m _ d => s.convertChecks m d
  | .fextH d | .fsqzH d => s.fpChecks (s.convertsFormat .half) s.cfg.fp.width [d]
  | .fextW d | .fsqzW d => s.fpChecks (s.convertsFormat .word) s.cfg.fp.width [d]
  | .fextD d | .fsqzD d => s.fpChecks (s.convertsFormat .dword) s.cfg.fp.width [d]
  | .fextQ d | .fsqzQ d => s.fpChecks (s.convertsFormat .quad) s.cfg.fp.width [d]
  | .fext1 d | .fsqz1 d => s.fpChecks (s.convertsFormat .sent) s.cfg.fp.width [d]
  -- Control
  | .jmpReg _ _ l | .waitReg l => s.gprChecks true 0 [l]
  | .jmpOff .. | .waitImm _ => s.gprChecks true 0 []
  | .bzReg m _ _ g l | .bnzReg m _ _ g l | .bmReg m _ _ g l | .bmzReg m _ _ g l | .bnmReg m _ _ g l
  | .bnmoReg m _ _ g l | .blReg m _ _ g l | .blzReg m _ _ g l | .bnlReg m _ _ g l | .bnloReg m _ _ g l
  | .boReg m _ _ g l | .bnoReg m _ _ g l => s.gprChecks (s.hasMode m) m.width [g, l]
  | .bzOff m _ _ g _ | .bnzOff m _ _ g _ | .bmOff m _ _ g _ | .bmzOff m _ _ g _ | .bnmOff m _ _ g _
  | .bnmoOff m _ _ g _ | .blOff m _ _ g _ | .blzOff m _ _ g _ | .bnlOff m _ _ g _ | .bnloOff m _ _ g _
  | .boOff m _ _ g _ | .bnoOff m _ _ g _ => s.gprChecks (s.hasMode m) m.width [g]
  | .ret _ | .reti _ => s.returnChecks
  | .rete _ | .retn _ => s.systemReturnChecks

/-- Every instruction does its work behind its checks; those of the arithmetic/logic group may set EST[1] (R35). -/
theorem exec_guarded (i : Instr) (s : State) :
    ∃ work, exec i s = .next (s.guarded (decide (i.topBits = 0)) (i.checks s) work) := by
  cases i <;> exact ⟨_, rfl⟩

/-- An instruction with a check that holds is refused with the first such check's exception (R409). -/
theorem exec_refused {i : Instr} {s : State} {e : Exc} (h : firstHit (i.checks s) = some e) :
    ∃ t, exec i s = .next t ∧ Refused s t e (decide (i.topBits = 0) && e == .unimplementedInstruction) := by
  obtain ⟨work, hexec⟩ := exec_guarded i s
  rw [s.guarded_of_some _ _ work e h] at hexec
  exact ⟨_, hexec, s.raiseCheck_refused e _⟩

/-- The group of a well-formed instruction stands in the two top bits of its word (R111). -/
theorem field_encode_topBits : ∀ i : Instr, i.wellFormed = true → field (encode i) 30 2 = i.topBits
  | .loadDisp .., h => Laws.Group.loadDisp _ _ _ _ h
  | .loadReg .., h => Laws.Group.loadReg _ _ _ h
  | .loadRegPostInc .., h => Laws.Group.loadRegPostInc _ _ _ h
  | .loadRegPostDec .., h => Laws.Group.loadRegPostDec _ _ _ h
  | .loadRegPreInc .., h => Laws.Group.loadRegPreInc _ _ _ h
  | .loadRegPreDec .., h => Laws.Group.loadRegPreDec _ _ _ h
  | .loadIdx .., h => Laws.Group.loadIdx _ _ _ _ h
  | .loadIdxPostInc .., h => Laws.Group.loadIdxPostInc _ _ _ _ h
  | .loadIdxPostDec .., h => Laws.Group.loadIdxPostDec _ _ _ _ h
  | .loadIdxPreInc .., h => Laws.Group.loadIdxPreInc _ _ _ _ h
  | .loadIdxPreDec .., h => Laws.Group.loadIdxPreDec _ _ _ _ h
  | .storeDisp .., h => Laws.Group.storeDisp _ _ _ _ h
  | .storeReg .., h => Laws.Group.storeReg _ _ _ h
  | .storeRegPostInc .., h => Laws.Group.storeRegPostInc _ _ _ h
  | .storeRegPostDec .., h => Laws.Group.storeRegPostDec _ _ _ h
  | .storeRegPreInc .., h => Laws.Group.storeRegPreInc _ _ _ h
  | .storeRegPreDec .., h => Laws.Group.storeRegPreDec _ _ _ h
  | .storeIdx .., h => Laws.Group.storeIdx _ _ _ _ h
  | .storeIdxPostInc .., h => Laws.Group.storeIdxPostInc _ _ _ _ h
  | .storeIdxPostDec .., h => Laws.Group.storeIdxPostDec _ _ _ _ h
  | .storeIdxPreInc .., h => Laws.Group.storeIdxPreInc _ _ _ _ h
  | .storeIdxPreDec .., h => Laws.Group.storeIdxPreDec _ _ _ _ h
  | .loadLockedDisp .., h => Laws.Group.loadLockedDisp _ _ _ _ h
  | .loadLockedReg .., h => Laws.Group.loadLockedReg _ _ _ h
  | .loadLockedRegPostInc .., h => Laws.Group.loadLockedRegPostInc _ _ _ h
  | .loadLockedRegPostDec .., h => Laws.Group.loadLockedRegPostDec _ _ _ h
  | .loadLockedRegPreInc .., h => Laws.Group.loadLockedRegPreInc _ _ _ h
  | .loadLockedRegPreDec .., h => Laws.Group.loadLockedRegPreDec _ _ _ h
  | .loadLockedIdx .., h => Laws.Group.loadLockedIdx _ _ _ _ h
  | .loadLockedIdxPostInc .., h => Laws.Group.loadLockedIdxPostInc _ _ _ _ h
  | .loadLockedIdxPostDec .., h => Laws.Group.loadLockedIdxPostDec _ _ _ _ h
  | .loadLockedIdxPreInc .., h => Laws.Group.loadLockedIdxPreInc _ _ _ _ h
  | .loadLockedIdxPreDec .., h => Laws.Group.loadLockedIdxPreDec _ _ _ _ h
  | .storeCondDisp .., h => Laws.Group.storeCondDisp _ _ _ _ h
  | .storeCondReg .., h => Laws.Group.storeCondReg _ _ _ h
  | .storeCondRegPostInc .., h => Laws.Group.storeCondRegPostInc _ _ _ h
  | .storeCondRegPostDec .., h => Laws.Group.storeCondRegPostDec _ _ _ h
  | .storeCondRegPreInc .., h => Laws.Group.storeCondRegPreInc _ _ _ h
  | .storeCondRegPreDec .., h => Laws.Group.storeCondRegPreDec _ _ _ h
  | .storeCondIdx .., h => Laws.Group.storeCondIdx _ _ _ _ h
  | .storeCondIdxPostInc .., h => Laws.Group.storeCondIdxPostInc _ _ _ _ h
  | .storeCondIdxPostDec .., h => Laws.Group.storeCondIdxPostDec _ _ _ _ h
  | .storeCondIdxPreInc .., h => Laws.Group.storeCondIdxPreInc _ _ _ _ h
  | .storeCondIdxPreDec .., h => Laws.Group.storeCondIdxPreDec _ _ _ _ h
  | .movRegReg .., h => Laws.Group.movRegReg _ _ _ h
  | .movRegSpc .., h => Laws.Group.movRegSpc _ _ _ h
  | .movSpcReg .., h => Laws.Group.movSpcReg _ _ _ h
  | .movRegDsp .., h => Laws.Group.movRegDsp _ _ _ h
  | .movDspReg .., h => Laws.Group.movDspReg _ _ _ h
  | .movRegFpr .., h => Laws.Group.movRegFpr _ _ _ h
  | .movFprReg .., h => Laws.Group.movFprReg _ _ _ h
  | .loadImm .., h => Laws.Group.loadImm _ _ _ _ h
  | .addReg .., h => Laws.Group.addReg _ _ _ _ h
  | .addImm .., h => Laws.Group.addImm _ _ _ _ h
  | .subReg .., h => Laws.Group.subReg _ _ _ _ h
  | .subImm .., h => Laws.Group.subImm _ _ _ _ h
  | .mulReg .., h => Laws.Group.mulReg _ _ _ _ h
  | .mulImm .., h => Laws.Group.mulImm _ _ _ _ h
  | .divReg .., h => Laws.Group.divReg _ _ _ _ h
  | .divImm .., h => Laws.Group.divImm _ _ _ _ h
  | .slReg .., h => Laws.Group.slReg _ _ _ _ h
  | .slImm .., h => Laws.Group.slImm _ _ _ _ h
  | .srReg .., h => Laws.Group.srReg _ _ _ _ h
  | .srImm .., h => Laws.Group.srImm _ _ _ _ h
  | .andReg .., h => Laws.Group.andReg _ _ _ _ h
  | .andImm .., h => Laws.Group.andImm _ _ _ _ h
  | .nandReg .., h => Laws.Group.nandReg _ _ _ _ h
  | .nandImm .., h => Laws.Group.nandImm _ _ _ _ h
  | .orReg .., h => Laws.Group.orReg _ _ _ _ h
  | .orImm .., h => Laws.Group.orImm _ _ _ _ h
  | .xorReg .., h => Laws.Group.xorReg _ _ _ _ h
  | .xorImm .., h => Laws.Group.xorImm _ _ _ _ h
  | .rlReg .., h => Laws.Group.rlReg _ _ _ h
  | .rlImm .., h => Laws.Group.rlImm _ _ _ h
  | .rrReg .., h => Laws.Group.rrReg _ _ _ h
  | .rrImm .., h => Laws.Group.rrImm _ _ _ h
  | .sbReg .., h => Laws.Group.sbReg _ _ _ h
  | .sbImm .., h => Laws.Group.sbImm _ _ _ h
  | .rbReg .., h => Laws.Group.rbReg _ _ _ h
  | .rbImm .., h => Laws.Group.rbImm _ _ _ h
  | .tbReg .., h => Laws.Group.tbReg _ _ _ h
  | .tbImm .., h => Laws.Group.tbImm _ _ _ h
  | .rvbReg .., h => Laws.Group.rvbReg _ _ _ h
  | .rvbImm .., h => Laws.Group.rvbImm _ _ _ h
  | .madReg .., h => Laws.Group.madReg _ _ _ _ _ h
  | .madImm .., h => Laws.Group.madImm _ _ _ _ _ h
  | .msuReg .., h => Laws.Group.msuReg _ _ _ _ _ h
  | .msuImm .., h => Laws.Group.msuImm _ _ _ _ _ h
  | .fadd .., h => Laws.Group.fadd _ _ h
  | .fsub .., h => Laws.Group.fsub _ _ h
  | .fmul .., h => Laws.Group.fmul _ _ h
  | .fdiv .., h => Laws.Group.fdiv _ _ h
  | .frem .., h => Laws.Group.frem _ _ h
  | .fcmp .., h => Laws.Group.fcmp _ _ h
  | .fsqr .., h => Laws.Group.fsqr _ h
  | .fabs .., h => Laws.Group.fabs _ h
  | .fneg .., h => Laws.Group.fneg _ h
  | .frnd .., h => Laws.Group.frnd _ h
  | .ff2i .., h => Laws.Group.ff2i _ _ _ h
  | .fi2f .., h => Laws.Group.fi2f _ _ _ h
  | .fextH .., h => Laws.Group.fextH _ h
  | .fextW .., h => Laws.Group.fextW _ h
  | .fextD .., h => Laws.Group.fextD _ h
  | .fextQ .., h => Laws.Group.fextQ _ h
  | .fext1 .., h => Laws.Group.fext1 _ h
  | .fsqzH .., h => Laws.Group.fsqzH _ h
  | .fsqzW .., h => Laws.Group.fsqzW _ h
  | .fsqzD .., h => Laws.Group.fsqzD _ h
  | .fsqzQ .., h => Laws.Group.fsqzQ _ h
  | .fsqz1 .., h => Laws.Group.fsqz1 _ h
  | .fmad .., h => Laws.Group.fmad _ _ _ h
  | .fmsu .., h => Laws.Group.fmsu _ _ _ h
  | .jmpReg .., h => Laws.Group.jmpReg _ _ _ h
  | .jmpOff .., h => Laws.Group.jmpOff _ _ _ h
  | .bzReg .., h => Laws.Group.bzReg _ _ _ _ _ h
  | .bzOff .., h => Laws.Group.bzOff _ _ _ _ _ h
  | .bnzReg .., h => Laws.Group.bnzReg _ _ _ _ _ h
  | .bnzOff .., h => Laws.Group.bnzOff _ _ _ _ _ h
  | .bmReg .., h => Laws.Group.bmReg _ _ _ _ _ h
  | .bmOff .., h => Laws.Group.bmOff _ _ _ _ _ h
  | .bmzReg .., h => Laws.Group.bmzReg _ _ _ _ _ h
  | .bmzOff .., h => Laws.Group.bmzOff _ _ _ _ _ h
  | .bnmReg .., h => Laws.Group.bnmReg _ _ _ _ _ h
  | .bnmOff .., h => Laws.Group.bnmOff _ _ _ _ _ h
  | .bnmoReg .., h => Laws.Group.bnmoReg _ _ _ _ _ h
  | .bnmoOff .., h => Laws.Group.bnmoOff _ _ _ _ _ h
  | .blReg .., h => Laws.Group.blReg _ _ _ _ _ h
  | .blOff .., h => Laws.Group.blOff _ _ _ _ _ h
  | .blzReg .., h => Laws.Group.blzReg _ _ _ _ _ h
  | .blzOff .., h => Laws.Group.blzOff _ _ _ _ _ h
  | .bnlReg .., h => Laws.Group.bnlReg _ _ _ _ _ h
  | .bnlOff .., h => Laws.Group.bnlOff _ _ _ _ _ h
  | .bnloReg .., h => Laws.Group.bnloReg _ _ _ _ _ h
  | .bnloOff .., h => Laws.Group.bnloOff _ _ _ _ _ h
  | .boReg .., h => Laws.Group.boReg _ _ _ _ _ h
  | .boOff .., h => Laws.Group.boOff _ _ _ _ _ h
  | .bnoReg .., h => Laws.Group.bnoReg _ _ _ _ _ h
  | .bnoOff .., h => Laws.Group.bnoOff _ _ _ _ _ h
  | .ret .., h => Laws.Group.ret _ h
  | .reti .., h => Laws.Group.reti _ h
  | .rete .., h => Laws.Group.rete _ h
  | .retn .., h => Laws.Group.retn _ h
  | .waitReg .., h => Laws.Group.waitReg _ h
  | .waitImm .., h => Laws.Group.waitImm _ h

/-! ### When the first hit is UNIMPLEMENTED INSTRUCTION -/

namespace Machine

theorem firstHit_cons_of_true {c : Bool} (e : Exc) (rest : List (Bool × Exc)) (h : c = true) :
    firstHit ((c, e) :: rest) = some e := by
  rw [h]; rfl

theorem firstHit_cons_of_false {c : Bool} (e : Exc) (rest : List (Bool × Exc)) (h : c = false) :
    firstHit ((c, e) :: rest) = firstHit rest := by
  rw [h]; rfl

theorem firstHit_append_of_some {checks : List (Bool × Exc)} {e : Exc} (rest : List (Bool × Exc))
    (h : firstHit checks = some e) : firstHit (checks ++ rest) = some e := by
  induction checks with
  | nil => cases h
  | cons c t ih =>
    obtain ⟨b, e'⟩ := c
    cases b
    · exact ih h
    · exact h

/-- An access that does not fit its file is one that is too wide for it (D39, log 10). -/
theorem accessFits_eq_false_iff_tooWide (f : List RegBits) (vw w : Nat) : accessFits f vw w = false ↔ TooWide f vw w :=
  accessFits_eq_false f vw w

theorem TooWide.mono {f : List RegBits} {vw w w' : Nat} (hw : w ≤ w') (h : TooWide f vw w) : TooWide f vw w' :=
  ⟨h.1, h.2.trans_le (partsNeeded_mono vw hw)⟩

section
variable (s : State) (m : MMode) (regs : List Nat)

theorem State.firstHit_gprChecks {implemented : Bool} {w : Nat}
    (h : implemented = false ∨ s.lacks = true ∨ TooWide s.gpr s.vw w) :
    firstHit (s.gprChecks implemented w regs) = some .unimplementedInstruction :=
  firstHit_cons_of_true _ _ (by simpa [accessFits_eq_false_iff_tooWide, or_assoc] using h)

theorem State.firstHit_fpChecks {implemented : Bool} {w : Nat}
    (h : s.cfg.fpuType = 0 ∨ implemented = false ∨ s.lacks = true ∨ TooWide s.fpFile s.fpPart w) :
    firstHit (s.fpChecks implemented w regs) = some .unimplementedInstruction :=
  firstHit_cons_of_true _ _ (by simpa [State.hasFpu, accessFits_eq_false_iff_tooWide, or_assoc] using h)

theorem State.firstHit_convertChecks (d : Nat)
    (h : s.cfg.fpuType = 0 ∨ s.hasMode m = false ∨ s.lacks = true ∨ TooWide s.fpFile s.fpPart s.cfg.fp.width
      ∨ TooWide s.intFile s.intPart m.width) :
    firstHit (s.convertChecks m d) = some .unimplementedInstruction :=
  firstHit_cons_of_true _ _ (by simpa [State.hasFpu, accessFits_eq_false_iff_tooWide, or_assoc] using h)

theorem State.firstHit_moveChecks {dst src : List RegBits} {dstVw srcVw : Nat} (d x : Nat)
    (h : s.hasTransfer m = false ∨ s.lacks = true ∨ TooWide dst dstVw m.width ∨ TooWide src srcVw m.width) :
    firstHit (s.moveChecks m dst dstVw d src srcVw x) = some .unimplementedInstruction :=
  firstHit_cons_of_true _ _ (by simpa [accessFits_eq_false_iff_tooWide, or_assoc] using h)

/-- The entries a special register write touches are those of its parts (R25, R32). -/
theorem State.touchedEntries_any_eq_false (d w : Nat) (p : Nat → Bool) :
    (s.touchedEntries d w).any p = false
      ↔ ∀ j, j < partsNeeded s.cfg.spcWidth w → p ((d + j) % s.spcFile.length) = false := by
  simp [State.touchedEntries]

/-- Where neither SYSTEM INSTRUCTION nor UNIMPLEMENTED GPR BANK is due, a MOV to a special register is refused as any
other move is, whichever of its bank and its width is checked first (R173, R409, log 12). -/
theorem State.firstHit_specialWriteChecks (d x : Nat) (after : State)
    (h : s.hasTransfer m = false ∨ s.lacks = true ∨ TooWide s.spcFile s.cfg.spcWidth m.width
      ∨ TooWide s.gpr s.vw m.width)
    (hsys : s.systemMode = true
      ∨ ∀ j, j < partsNeeded s.cfg.spcWidth m.width → userReadOnly s.cfg ((d + j) % s.spcFile.length) = false)
    (hbank : after.bank < s.banks.length) :
    firstHit (s.specialWriteChecks m d x after) = some .unimplementedInstruction := by
  rw [← s.touchedEntries_any_eq_false] at hsys
  have hmove := s.firstHit_moveChecks m d x h
  unfold State.specialWriteChecks
  rw [List.append_assoc, List.singleton_append, firstHit_cons_of_false _ _ (by rcases hsys with h | h <;> simp [h])]
  split
  · rw [List.append_assoc, List.singleton_append, firstHit_cons_of_false _ _ (by simp [hbank.not_ge])]
    exact firstHit_append_of_some _ hmove
  · exact firstHit_append_of_some _ (firstHit_append_of_some _ hmove)

end

/-- The instruction is refused with UNIMPLEMENTED INSTRUCTION (R416); `est1` says whether a skip sets EST[1] (R35). -/
def Lacking (s : State) (i : Instr) (est1 : Bool) : Prop :=
  ∃ t, exec i s = .next t ∧ Refused s t .unimplementedInstruction est1

/-- An instruction of the arithmetic/logic group or not, as `arithmetic` says, that opens with these checks. -/
def OpensWith (s : State) (i : Instr) (arithmetic : Bool) (checks : List (Bool × Exc)) : Prop :=
  decide (i.topBits = 0) = arithmetic ∧ i.checks s = checks

theorem OpensWith.lacking {s : State} {i : Instr} {arithmetic : Bool} {checks : List (Bool × Exc)}
    (hi : OpensWith s i arithmetic checks) (h : firstHit checks = some .unimplementedInstruction) :
    Lacking s i arithmetic := by
  obtain ⟨harith, hchecks⟩ := hi
  obtain ⟨t, hexec, ht⟩ := exec_refused (i := i) (s := s) (hchecks ▸ h)
  rw [harith, beq_self_eq_true, Bool.and_true] at ht
  exact ⟨t, hexec, ht⟩

section
variable {s : State} {i : Instr} {m : MMode} {dst src : List RegBits} {dstVw srcVw d x : Nat}

theorem OpensWith.lacking_of_source (hi : OpensWith s i false (s.moveChecks m dst dstVw d src srcVw x))
    (h : TooWide src srcVw m.width) : Lacking s i false :=
  hi.lacking (s.firstHit_moveChecks m d x (.inr (.inr (.inr h))))

theorem OpensWith.lacking_of_destination (hi : OpensWith s i false (s.moveChecks m dst dstVw d src srcVw x))
    (h : TooWide dst dstVw m.width) : Lacking s i false :=
  hi.lacking (s.firstHit_moveChecks m d x (.inr (.inr (.inl h))))

end

/-! ### The checks of the forms that one rule covers -/

section
variable (s : State) (m : MMode) (u : Bool) (d r : Nat)

theorem opensWith_integerForms (o : Operand2) :
    ∀ i ∈ integerForms m u d o, OpensWith s i true (s.gprChecks (s.hasMode m) m.width (d :: o.registers)) := by
  simp only [integerForms, List.forall_mem_cons, List.not_mem_nil, false_implies, implies_true, and_true]
  cases o <;> and_intros <;> rfl

theorem opensWith_mul (o : Operand2) :
    OpensWith s (o.instr (.mulReg m u d) (.mulImm m u d)) true
      (s.gprChecks (s.hasMode m && s.cfg.hasMul) (2 * m.width) (d :: o.registers)) := by
  cases o <;> exact ⟨rfl, rfl⟩

theorem opensWith_div (o : Operand2) :
    OpensWith s (o.instr (.divReg m u d) (.divImm m u d)) true
      (s.gprChecks (s.hasMode m && s.cfg.hasDiv) m.width (d :: o.registers)) := by
  cases o <;> exact ⟨rfl, rfl⟩

theorem opensWith_fused (o : Operand3) :
    ∀ i ∈ [o.instr (.madReg m u d r) (.madImm m u d r), o.instr (.msuReg m u d r) (.msuImm m u d r)],
      OpensWith s i true (s.gprChecks (s.hasMode m && s.cfg.hasMul) (2 * m.width) (d :: r :: o.registers)) := by
  simp only [List.forall_mem_cons, List.not_mem_nil, false_implies, implies_true, and_true]
  cases o <;> and_intros <;> rfl

/-- An FP form accesses its operands at the FP width at least; FCMP's 16 bits of EST can be more (R305). -/
theorem opensWith_floatForms (n : Nat) :
    ∀ q ∈ floatForms d r n, ∃ w, s.cfg.fp.width ≤ w ∧ OpensWith s q.1 true (s.fpChecks true w q.2) := by
  have plain : ∀ {i regs}, OpensWith s i true (s.fpChecks true s.cfg.fp.width regs) →
      ∃ w, s.cfg.fp.width ≤ w ∧ OpensWith s i true (s.fpChecks true w regs) := fun h => ⟨_, le_rfl, h⟩
  simp only [floatForms, List.forall_mem_cons, List.not_mem_nil, false_implies, implies_true, and_true]
  exact ⟨plain ⟨rfl, rfl⟩, plain ⟨rfl, rfl⟩, plain ⟨rfl, rfl⟩, plain ⟨rfl, rfl⟩, plain ⟨rfl, rfl⟩,
    ⟨_, le_max_left _ 16, rfl, rfl⟩, plain ⟨rfl, rfl⟩, plain ⟨rfl, rfl⟩, plain ⟨rfl, rfl⟩, plain ⟨rfl, rfl⟩,
    plain ⟨rfl, rfl⟩, plain ⟨rfl, rfl⟩⟩

theorem opensWith_formatForms :
    ∀ q ∈ formatForms d,
      OpensWith s q.1 true (s.fpChecks (s.convertsFormat q.2.2) s.cfg.fp.width [d])
        ∧ OpensWith s q.2.1 true (s.fpChecks (s.convertsFormat q.2.2) s.cfg.fp.width [d]) := by
  simp only [formatForms, List.forall_mem_cons, List.not_mem_nil, false_implies, implies_true, and_true]
  and_intros <;> rfl

theorem opensWith_memoryForms (ad : Addressing) :
    ∀ i ∈ memoryForms m d ad, OpensWith s i false (s.memoryChecks m d ad) := by
  simp only [memoryForms, List.forall_mem_cons, List.not_mem_nil, false_implies, implies_true, and_true]
  cases ad with
  | displacement b off => and_intros <;> rfl
  | register x upd => cases upd <;> and_intros <;> rfl
  | indexed b x upd => cases upd <;> and_intros <;> rfl

theorem opensWith_branch (a p : Bool) (c : Branch) (g : Nat) (tgt : Target 14) :
    OpensWith s (c.instr m a p g tgt) false (s.gprChecks (s.hasMode m) m.width (g :: tgt.registers)) := by
  cases tgt <;> cases c <;> exact ⟨rfl, rfl⟩

end

/-! ### Lacking instructions -/

/-- A word the implementation leaves out fails the first check of every instruction; ahead of it stand only the SYSTEM
INSTRUCTION of RETE and RETN and the checks of MOV to a special register (R414, log 11). -/
theorem firstHit_checks_of_lacks (i : Instr) (s : State) (hl : s.lacks = true) (hspc : ∀ m d x, i ≠ .movSpcReg m d x)
    (hsys : s.systemMode = true ∨ ∀ p, i ≠ .rete p ∧ i ≠ .retn p) :
    firstHit (i.checks s) = some .unimplementedInstruction := by
  have systemReturn (h : s.systemMode = true) : firstHit s.systemReturnChecks = some .unimplementedInstruction := by
    rw [State.systemReturnChecks, firstHit_cons_of_false _ _ (by rw [h]; rfl), firstHit_cons_of_true _ _ hl]
  cases i with
  | movSpcReg m d x => exact absurd rfl (hspc m d x)
  | rete p => exact systemReturn (hsys.resolve_right fun h => (h p).1 rfl)
  | retn p => exact systemReturn (hsys.resolve_right fun h => (h p).2 rfl)
  | _ => exact firstHit_cons_of_true _ _ (by simp [hl])

/-- EST[1] of a skipped word that is left out is set in the arithmetic/logic group, which bits 31:30 of the word tell
(R35, R111). -/
theorem lacking_of_lacks (i : Instr) (s : State) (hl : s.lacks = true) (hw : i.wellFormed = true)
    (hspc : ∀ m d x, i ≠ .movSpcReg m d x) (hsys : s.systemMode = true ∨ ∀ p, i ≠ .rete p ∧ i ≠ .retn p) :
    Lacking s i (decide (field (encode i) 30 2 = 0)) := by
  rw [field_encode_topBits i hw]
  exact OpensWith.lacking ⟨rfl, rfl⟩ (firstHit_checks_of_lacks i s hl hspc hsys)

/-- The transfers with a GPR at one end are lacking above MAX_TRANSFER or where the GPR file is too small (R173). -/
theorem transfers_lacking (s : State) (m : MMode) (u : Bool) (d r : Nat) (imm : BitVec 18) (ad : Addressing)
    (h : s.hasTransfer m = false ∨ TooWide s.gpr s.vw m.width) :
    ∀ i ∈ memoryForms m d ad ++ [Instr.movRegReg m d r, .movRegSpc m d r, .movRegDsp m d r, .movDspReg m d r,
      .movRegFpr m d r, .movFprReg m d r, .loadImm m u d imm], Lacking s i false := by
  have gpr (regs : List Nat) := s.firstHit_gprChecks regs (h.imp_right .inr)
  have toGpr {i : Instr} {src : List RegBits} {srcVw : Nat}
      (hi : OpensWith s i false (s.moveChecks m s.gpr s.vw d src srcVw r)) : Lacking s i false :=
    hi.lacking (s.firstHit_moveChecks m d r (h.imp_right fun hg => .inr (.inl hg)))
  have fromGpr {i : Instr} {dst : List RegBits} {dstVw : Nat}
      (hi : OpensWith s i false (s.moveChecks m dst dstVw d s.gpr s.vw r)) : Lacking s i false :=
    hi.lacking (s.firstHit_moveChecks m d r (h.imp_right fun hg => .inr (.inr hg)))
  simp only [List.forall_mem_append, List.forall_mem_cons, List.not_mem_nil, false_implies, implies_true, and_true]
  exact ⟨fun i hi => (opensWith_memoryForms s m d ad i hi).lacking (gpr _), toGpr ⟨rfl, rfl⟩, toGpr ⟨rfl, rfl⟩,
    toGpr ⟨rfl, rfl⟩, fromGpr ⟨rfl, rfl⟩, toGpr ⟨rfl, rfl⟩, fromGpr ⟨rfl, rfl⟩, OpensWith.lacking ⟨rfl, rfl⟩ (gpr _)⟩

/-- Settles O28: each form opens with checks of which the first, once what ranks before it is out of the way, is whether
the implementation has the instruction. -/
theorem lackingInstructionsAreRefused : Obligations.LackingInstructionsAreRefused := by
  intro s m u a p d r n imm o o3 ad
  refine ⟨?integer, ?product, ?div, ?float, ?fcmp, ?convert, ?format, transfers_lacking s m u d r imm ad, ?fromSpc,
    ?dsp, ?fpr, ?toSpc, ?branch, ?word⟩
  case integer =>
    intro h i hi
    exact (opensWith_integerForms s m u d o i hi).lacking (s.firstHit_gprChecks _ (h.imp_right .inr))
  case product =>
    intro h
    have gpr (regs : List Nat) : firstHit (s.gprChecks (s.hasMode m && s.cfg.hasMul) (2 * m.width) regs) =
        some .unimplementedInstruction :=
      s.firstHit_gprChecks regs (by rw [Bool.and_eq_false_iff]; tauto)
    have fused i hi := (opensWith_fused s m u d r o3 i hi).lacking (gpr _)
    exact ⟨(opensWith_mul s m u d o).lacking (gpr _), fused _ (.head _), fused _ (.tail _ (.head _))⟩
  case div =>
    intro h
    exact (opensWith_div s m u d o).lacking (s.firstHit_gprChecks _ (by rw [Bool.and_eq_false_iff]; tauto))
  case float =>
    intro h q hq
    obtain ⟨w, hw, hi⟩ := opensWith_floatForms s d r n q hq
    exact hi.lacking (s.firstHit_fpChecks _ (h.imp_right fun hf => .inr (.inr (hf.mono hw))))
  case fcmp =>
    intro h
    exact OpensWith.lacking ⟨rfl, rfl⟩ (s.firstHit_fpChecks [d, r] (.inr (.inr (.inr (h.mono (le_max_right _ _))))))
  case convert =>
    intro h
    have hit := s.firstHit_convertChecks m d (by tauto)
    exact ⟨OpensWith.lacking ⟨rfl, rfl⟩ hit, OpensWith.lacking ⟨rfl, rfl⟩ hit⟩
  case format =>
    intro q hq h
    have hit := s.firstHit_fpChecks (implemented := s.convertsFormat q.2.2) (w := s.cfg.fp.width) [d] <| by
      simpa [State.convertsFormat, or_assoc] using by tauto
    obtain ⟨hext, hsqz⟩ := opensWith_formatForms s d q hq
    exact ⟨hext.lacking hit, hsqz.lacking hit⟩
  case fromSpc =>
    exact OpensWith.lacking_of_source ⟨rfl, rfl⟩
  case dsp =>
    exact fun h => ⟨OpensWith.lacking_of_source ⟨rfl, rfl⟩ h, OpensWith.lacking_of_destination ⟨rfl, rfl⟩ h⟩
  case fpr =>
    exact fun h => ⟨OpensWith.lacking_of_source ⟨rfl, rfl⟩ h, OpensWith.lacking_of_destination ⟨rfl, rfl⟩ h⟩
  case toSpc =>
    intro h hsys hbank
    exact OpensWith.lacking ⟨rfl, rfl⟩ (s.firstHit_specialWriteChecks m d r _ (by tauto) hsys hbank)
  case branch =>
    intro h c g tgt
    exact (opensWith_branch s m a p c g tgt).lacking (s.firstHit_gprChecks _ (h.imp_right .inr))
  case word =>
    intro hl i hw hspc hsys
    exact lacking_of_lacks i s hl hw hspc hsys

end Machine
end Sys2Proof
end

section
/-! PROOFS. A register file's wide reads and writes, bit by bit (R22, R24, R25), and what a write keeps. -/
namespace Sys2Proof.Machine

/-! ### Reads -/

theorem readParts_lt (f : List RegBits) (vw n k : Nat) : readParts f vw n k < 2 ^ (vw * k) := by
  induction k with
  | zero => simp [readParts]
  | succ k ih =>
    have hpart : (regAt f (n + k)).toNat % 2 ^ vw + 1 ≤ 2 ^ vw := Nat.mod_lt _ (Nat.two_pow_pos vw)
    calc readParts f vw n (k + 1)
        < 2 ^ (vw * k) + (regAt f (n + k)).toNat % 2 ^ vw * 2 ^ (vw * k) := Nat.add_lt_add_right ih _
      _ = ((regAt f (n + k)).toNat % 2 ^ vw + 1) * 2 ^ (vw * k) := by ring
      _ ≤ 2 ^ vw * 2 ^ (vw * k) := Nat.mul_le_mul_right _ hpart
      _ = 2 ^ (vw * (k + 1)) := by rw [← pow_add]; ring_nf

/-- Bit `j` of the number that `k` successive registers hold stands in the register `j / vw` places on. -/
theorem testBit_readParts (f : List RegBits) (vw n k j : Nat) (hj : j < vw * k) :
    (readParts f vw n k).testBit j = (regAt f (n + j / vw)).getLsbD (j % vw) := by
  induction k with
  | zero => omega
  | succ k ih =>
    rw [readParts, Nat.add_comm, Nat.mul_comm, Nat.testBit_two_pow_mul_add _ (readParts_lt f vw n k)]
    split
    · exact ih ‹_›
    · rename_i hge
      have hj' : j - vw * k < vw := by rw [Nat.mul_succ] at hj; omega
      obtain ⟨i, rfl⟩ := Nat.exists_eq_add_of_le (Nat.le_of_not_lt hge)
      rw [Nat.add_sub_cancel_left] at hj' ⊢
      rw [Nat.mul_add_div (by omega), Nat.mul_add_mod, Nat.div_eq_of_lt hj', Nat.mod_eq_of_lt hj', Nat.add_zero,
        Nat.testBit_mod_two_pow, decide_eq_true hj', Bool.true_and, BitVec.testBit_toNat]

/-- The registers an access takes hold all its bits, and the last of them holds one at least. -/
theorem lt_partsNeeded_iff {vw w p : Nat} (hvw : 0 < vw) : p < partsNeeded vw w ↔ vw * p < w := by
  rw [partsNeeded, Nat.lt_div_iff_mul_lt hvw, Nat.mul_comm]
  omega

theorem div_lt_partsNeeded {vw w k : Nat} (hvw : 0 < vw) (hk : k < w) : k / vw < partsNeeded vw w :=
  (lt_partsNeeded_iff hvw).2 ((Nat.mul_div_le k vw).trans_lt hk)

/-- Settles O13: bit `k` of a wide read is bit `k` of the number its registers hold. -/
theorem fileReadIsBitwise : Obligations.FileReadIsBitwise := by
  intro f vw n w k hvw hk
  have hparts : k < vw * partsNeeded vw w := by
    have := Nat.lt_mul_div_succ k hvw
    exact this.trans_le (Nat.mul_le_mul_left vw (div_lt_partsNeeded hvw hk))
  rw [readFile, BitVec.getLsbD_ofNat, decide_eq_true hk, Bool.true_and, testBit_readParts f vw n _ k hparts]
  rfl

/-! ### Writes -/

/-- A register with its low bits replaced, bit by bit (R22). -/
theorem getLsbD_withLow (old : RegBits) {width : Nat} (value j : Nat) (hw : width ≤ 1024) :
    (withLow old width value).getLsbD j = if j < width then value.testBit j else old.getLsbD j := by
  rw [withLow, BitVec.getLsbD_ofNat, Nat.mul_comm,
    Nat.testBit_two_pow_mul_add _ (Nat.mod_lt _ (Nat.two_pow_pos width))]
  split
  · rw [Nat.testBit_mod_two_pow, decide_eq_true (by omega), decide_eq_true ‹j < width›, Bool.true_and, Bool.true_and]
  · rw [Nat.testBit_div_two_pow, Nat.sub_add_cancel (by omega), BitVec.testBit_toNat]
    by_cases hj : j < 1024
    · rw [decide_eq_true hj, Bool.true_and]
    · rw [BitVec.getLsbD_of_ge _ _ (by omega), Bool.and_false]

/-- Replacing low bits within a width leaves a register of that width. -/
theorem withLow_lt {old : RegBits} {width bound : Nat} (value : Nat) (hold : old.toNat < 2 ^ bound)
    (hw : width ≤ bound) : (withLow old width value).toNat < 2 ^ bound := by
  have hhigh : old.toNat / 2 ^ width + 1 ≤ 2 ^ (bound - width) := by
    rw [Nat.succ_le_iff, Nat.div_lt_iff_lt_mul (Nat.two_pow_pos width), ← pow_add, Nat.sub_add_cancel hw]
    exact hold
  calc (withLow old width value).toNat
      ≤ old.toNat / 2 ^ width * 2 ^ width + value % 2 ^ width := by
        rw [withLow, BitVec.toNat_ofNat]
        exact Nat.mod_le _ _
    _ < (old.toNat / 2 ^ width + 1) * 2 ^ width := by
        rw [Nat.succ_mul]
        exact Nat.add_lt_add_left (Nat.mod_lt _ (Nat.two_pow_pos width)) _
    _ ≤ 2 ^ (bound - width) * 2 ^ width := Nat.mul_le_mul_right _ hhigh
    _ = 2 ^ bound := by rw [← pow_add, Nat.sub_add_cancel hw]

section
variable (f : List RegBits) (vw n w v : Nat)

@[simp] theorem length_writeParts (k : Nat) : (writeParts f vw n w v k).length = f.length := by
  induction k with
  | zero => rfl
  | succ k ih => simp only [writeParts, List.length_set, ih]

@[simp] theorem length_writeFile {w : Nat} (v : BitVec w) : (writeFile f vw n v).length = f.length :=
  length_writeParts ..

/-- A register that is not the next one written keeps its value. -/
theorem getD_writeParts_succ_of_ne {k i : Nat} (h : i ≠ (n + k) % f.length) :
    (writeParts f vw n w v (k + 1)).getD i 0 = (writeParts f vw n w v k).getD i 0 := by
  simp only [writeParts, length_writeParts, List.getD_eq_getElem?_getD, List.getElem?_set_ne h.symm]

/-- The next register written gets its part of the value in its low bits. -/
theorem getD_writeParts_succ_self (hf : f ≠ []) (k : Nat) :
    (writeParts f vw n w v (k + 1)).getD ((n + k) % f.length) 0
      = withLow ((writeParts f vw n w v k).getD ((n + k) % f.length) 0) (min vw (w - vw * k)) (v / 2 ^ (vw * k)) := by
  have hi : (n + k) % f.length < f.length := Nat.mod_lt _ (List.length_pos_iff.2 hf)
  simp only [writeParts, length_writeParts, List.getD_eq_getElem?_getD, regAt, List.getElem?_set_self']
  simp [hi]

/-- A write keeps the registers it does not name (R25). -/
theorem getD_writeFile_of_ne {w : Nat} (v : BitVec w) {i : Nat}
    (h : ∀ k, k < partsNeeded vw w → i ≠ (n + k) % f.length) : (writeFile f vw n v).getD i 0 = f.getD i 0 := by
  have first (k : Nat) (hk : k ≤ partsNeeded vw w) :
      (writeParts f vw n w v.toNat k).getD i 0 = f.getD i 0 := by
    induction k with
    | zero => rfl
    | succ k ih => rw [getD_writeParts_succ_of_ne f vw n w _ (h k hk), ih (by omega)]
  exact first _ le_rfl

variable {f}

/-- No register is named twice by an access that takes no more registers than there are. -/
theorem register_ne_of_lt {p k : Nat} (hp : p < k) (hk : k < f.length) : (n + p) % f.length ≠ (n + k) % f.length := by
  intro h
  have hmod : p % f.length = k % f.length := Nat.ModEq.add_left_cancel' n h
  rw [Nat.mod_eq_of_lt hk, Nat.mod_eq_of_lt (hp.trans hk)] at hmod
  omega

/-- The bits of part `p` stand in register `n + p` once it is written (R25). -/
theorem getLsbD_writeParts_of_part (hf : f ≠ []) (hvw : vw ≤ 1024) {k p j : Nat} (hk : k ≤ f.length) (hp : p < k)
    (hj : j < min vw (w - vw * p)) :
    ((writeParts f vw n w v k).getD ((n + p) % f.length) 0).getLsbD j = v.testBit (vw * p + j) := by
  induction k with
  | zero => omega
  | succ k ih =>
    rcases Nat.lt_succ_iff_lt_or_eq.1 hp with hlt | rfl
    · rw [getD_writeParts_succ_of_ne f vw n w v (register_ne_of_lt n hlt hk)]
      exact ih (by omega) hlt
    · rw [getD_writeParts_succ_self f vw n w v hf, getLsbD_withLow _ _ _ ((min_le_left ..).trans hvw), if_pos hj,
        Nat.testBit_div_two_pow, Nat.add_comm]

/-- A bit that is in no part written keeps its value (R22, R25). -/
theorem getLsbD_writeParts_of_other (hf : f ≠ []) (hvw : vw ≤ 1024) {k i j : Nat}
    (h : ∀ p, p < k → ¬(i = (n + p) % f.length ∧ j < min vw (w - vw * p))) :
    ((writeParts f vw n w v k).getD i 0).getLsbD j = (f.getD i 0).getLsbD j := by
  induction k with
  | zero => rfl
  | succ k ih =>
    have ih := ih fun p hp => h p (by omega)
    by_cases hi : i = (n + k) % f.length
    · have hj := fun hj => h k (by omega) ⟨hi, hj⟩
      rw [hi, getD_writeParts_succ_self f vw n w v hf, getLsbD_withLow _ _ _ ((min_le_left ..).trans hvw), if_neg hj,
        ← hi, ih]
    · rw [getD_writeParts_succ_of_ne f vw n w v hi, ih]

end

/-- Settles O14: part `k / vw` of the value, in its register, holds bit `k` at place `k mod vw`. -/
theorem fileWriteIsBitwise : Obligations.FileWriteIsBitwise := by
  intro f vw n w v hvw hvw1024 hf hparts
  refine ⟨length_writeFile .., fun k hk => ?_, fun i j h => ?_⟩
  · have hplace : k % vw < min vw (w - vw * (k / vw)) := by
      have := Nat.mod_lt k hvw
      have := Nat.div_add_mod k vw
      omega
    rw [bitAt, length_writeFile, writeFile,
      getLsbD_writeParts_of_part vw n w _ hf hvw1024 hparts (div_lt_partsNeeded hvw hk) hplace, Nat.div_add_mod,
      BitVec.testBit_toNat]
  · refine getLsbD_writeParts_of_other vw n w _ hf hvw1024 fun p hp hij => h (vw * p + j) (by omega) ?_
    have hj : j < vw := by omega
    rw [Nat.mul_add_div hvw, Nat.mul_add_mod, Nat.div_eq_of_lt hj, Nat.mod_eq_of_lt hj]
    exact ⟨hij.1, rfl⟩

theorem regAt_lt {f : List RegBits} {width : Nat} (h : fitsWidth width f) (i : Nat) :
    (regAt f i).toNat < 2 ^ width := by
  rw [regAt, List.getD_eq_getElem?_getD]
  cases hget : f[i % f.length]? with
  | none => rw [Option.getD_none, BitVec.ofNat_eq_ofNat, BitVec.toNat_zero]; exact Nat.two_pow_pos width
  | some r => exact h r (List.mem_of_getElem? hget)

/-- A write keeps the width of a file, when its parts are no wider (R21). -/
theorem fitsWidth_writeFile {f : List RegBits} {vw width : Nat} (n : Nat) {w : Nat} (v : BitVec w) (hvw : vw ≤ width)
    (h : fitsWidth width f) : fitsWidth width (writeFile f vw n v) := by
  have all (k : Nat) : fitsWidth width (writeParts f vw n w v.toNat k) := by
    induction k with
    | zero => exact h
    | succ k ih =>
      intro r hr
      rcases List.mem_or_eq_of_mem_set hr with hr | rfl
      · exact ih r hr
      · have hpart : min vw (w - vw * k) ≤ width := (min_le_left ..).trans hvw
        exact withLow_lt _ (regAt_lt ih _) hpart
  exact all _

end Sys2Proof.Machine
end

section
/-! PROOFS. What one step keeps, in two halves: exceptions and program flow leave every register file, memory and the
reservation alone (`FlowKept`), and what an instruction writes beside them is little (`Writes`). -/
namespace Sys2Proof.Machine

/-! ### What exceptions and program flow keep -/

/-- Replacing SCR bits 0, 2 and 3 keeps the bank number, SCR[7:4] (R26). -/
theorem bank_withSavedBits (scr : Word) (b : SavedBits) :
    (withSavedBits scr b).toNat / 16 % 16 = scr.toNat / 16 % 16 := by
  have field (v : Word) : v.toNat / 16 % 16 = (v.extractLsb' 4 4).toNat := by
    simp [BitVec.extractLsb'_toNat, Nat.shiftRight_eq_div_pow]
  rw [field, field]
  congr 1
  apply BitVec.eq_of_getLsbD_eq
  intro n hn
  rw [BitVec.getLsbD_extractLsb', BitVec.getLsbD_extractLsb', withSavedBits_getLsbD, if_neg (by omega),
    if_neg (by omega), if_neg (by omega)]

theorem bank_restoreScr (scr : Word) (saved : Option SavedBits) :
    (restoreScr scr saved).toNat / 16 % 16 = scr.toNat / 16 % 16 := by
  cases saved with
  | none => rfl
  | some b => exact bank_withSavedBits scr b

/-- `t` has from `s` what exceptions, returns, pauses and the completion of instructions do not write. -/
structure FlowKept (s t : State) : Prop where
  cfg : t.cfg = s.cfg
  banks : t.banks = s.banks
  bank : t.bank = s.bank
  dsp : t.dsp = s.dsp
  fpr : t.fpr = s.fpr
  exm : t.exm = s.exm
  spcExtra : t.spcExtra = s.spcExtra
  mem : t.mem = s.mem
  reservation : t.reservation = s.reservation
  inputs : t.inputs = s.inputs
  resets : t.resets = s.resets

namespace FlowKept
variable {s t u : State}

theorem refl (s : State) : FlowKept s s := by constructor <;> rfl

theorem trans (h : FlowKept s t) (h' : FlowKept t u) : FlowKept s u where
  cfg := h'.cfg.trans h.cfg
  banks := h'.banks.trans h.banks
  bank := h'.bank.trans h.bank
  dsp := h'.dsp.trans h.dsp
  fpr := h'.fpr.trans h.fpr
  exm := h'.exm.trans h.exm
  spcExtra := h'.spcExtra.trans h.spcExtra
  mem := h'.mem.trans h.mem
  reservation := h'.reservation.trans h.reservation
  inputs := h'.inputs.trans h.inputs
  resets := h'.resets.trans h.resets

theorem advance (h : FlowKept s t) : FlowKept s t.advance := h.trans (by constructor <;> rfl)

theorem mark (h : FlowKept s t) (es : List Exc) : FlowKept s (t.mark es) :=
  h.trans (by constructor <;> simp [State.bank])

theorem retire (h : FlowKept s t) (start : State) : FlowKept s (t.retire start) :=
  h.trans (by constructor <;> simp [State.bank])

theorem enterException (h : FlowKept s t) (rp : DWord) : FlowKept s (t.enterException rp) :=
  h.trans (by constructor <;> simp [State.bank, bank_withSavedBits])

theorem enterNmi (h : FlowKept s t) : FlowKept s t.enterNmi :=
  h.trans (by constructor <;> simp [State.bank, bank_withSavedBits])

theorem enterInterrupt (h : FlowKept s t) : FlowKept s t.enterInterrupt :=
  h.trans (by constructor <;> simp [State.bank, bank_withSavedBits])

theorem leaveException (h : FlowKept s t) (p : Bool) : FlowKept s (t.leaveException p) :=
  h.trans (by constructor <;> simp [State.bank, bank_restoreScr])

theorem leaveNmi (h : FlowKept s t) (p : Bool) : FlowKept s (t.leaveNmi p) :=
  h.trans (by constructor <;> simp [State.bank, bank_restoreScr])

theorem leaveInterrupt (h : FlowKept s t) (p : Bool) : FlowKept s (t.leaveInterrupt p) :=
  h.trans (by constructor <;> simp [State.bank, bank_restoreScr])

theorem abort (s : State) (es : List Exc) : FlowKept s (s.abort es) := ((refl s).mark es).enterException _

theorem skip (s : State) (e : Exc) (arithmetic : Bool) : FlowKept s (s.skip e arithmetic) := by
  have flag : FlowKept s (if arithmetic && e == .unimplementedInstruction then s.setUnimplementedFlag else s) := by
    split
    · constructor <;> rfl
    · exact refl s
  exact ((flag.mark [e]).advance).retire s

theorem raiseCheck (s : State) (e : Exc) (arithmetic : Bool) : FlowKept s (s.raiseCheck e arithmetic) :=
  s.raiseCheck_rule e arithmetic (fun _ => abort s [e]) fun _ => skip s e arithmetic

theorem dataBusError (s : State) : FlowKept s s.dataBusError := by
  have line : FlowKept s { s.mark [.dSystemBusError] with errorLine := true } := by constructor <;> rfl
  exact line.advance.retire s

theorem fetchBusError (s : State) : FlowKept s s.fetchBusError := by
  unfold State.fetchBusError
  dsimp only
  split
  · exact enterException (by constructor <;> rfl) _
  · constructor <;> rfl

theorem invalidInstruction (s : State) (word : Word) : FlowKept s { s with ir := word }.invalidInstruction := by
  have fetched : FlowKept s { s with ir := word } := by constructor <;> rfl
  exact fetched.trans (raiseCheck _ _ _)

theorem boundary (s : State) : FlowKept s s.boundary :=
  s.boundary_rule (refl s) (refl s).enterNmi (enterException (by constructor <;> rfl) _) ((refl s).enterException _)
    (refl s).enterInterrupt

theorem endPause (s : State) : FlowKept s s.endPause := by
  have stopped : FlowKept s { s with waiting := false, waitTimer := 0 } := by constructor <;> rfl
  exact stopped.advance.retire s

end FlowKept

/-- What a clock cycle of a pause can do (R385). -/
theorem State.pauseCycle_cases (s : State) :
    s.pauseCycle = s.endPause ∨ s.pauseCycle = s ∨ s.pauseCycle = { s with waitTimer := s.waitTimer - 1 } := by
  unfold State.pauseCycle
  split
  · exact .inl rfl
  split
  · exact .inl rfl
  split
  · exact .inr (.inl rfl)
  split
  · exact .inl rfl
  · exact .inr (.inr rfl)

theorem FlowKept.pauseCycle (s : State) : FlowKept s s.pauseCycle := by
  rcases s.pauseCycle_cases with h | h | h <;> rw [h]
  · exact endPause s
  · exact refl s
  · constructor <;> rfl

/-! ### What an instruction writes beside that -/

/-- The writes of an instruction ahead of its exceptions, its advance and its completion: register files with memory and
the reservation, or the special registers. -/
inductive Writes (s : State) : State → Prop where
  | files {u : State} (m : Memory) (r : Option (Nat × Nat)) (hu : RegWrites { s with mem := m, reservation := r } u)
      (hm : m = s.mem ∨ ∃ addr n v, m = Memory.writeBytes s.cfg s.mem addr n v n)
      (hr : r = s.reservation ∨ r = none ∨ ∃ a, ∃ w : MMode, r = some (a % addressSpace s.cfg, w.bytes)) : Writes s u
  | special (m : MMode) (d x : Nat)
      (hc : firstHit (s.specialWriteChecks m d x (s.writeSpc d (s.readGpr x m.width))) = none) :
      Writes s (specialWritten (s.touchedEntries d m.width) (s.writeSpc d (s.readGpr x m.width)))

theorem Writes.none (s : State) : Writes s s := .files s.mem s.reservation .none (.inl rfl) (.inl rfl)

/-- Register writes do not see the reservation. -/
theorem RegWrites.withReservation {s u : State} (h : RegWrites s u) (r : Option (Nat × Nat)) :
    RegWrites { s with reservation := r } { u with reservation := r } := by
  induction h with
  | none => exact .none
  | gpr n v _ ih => exact ih.gpr n v
  | fp n v _ ih =>
    convert ih.fp n v using 1
    unfold State.writeFp
    split <;> rfl
  | fpr n v _ ih => exact ih.fpr n v
  | dsp n v _ ih => exact ih.dsp n v

/-- An instruction that answers a next state has made its writes, and kept the rest but for exceptions and program
flow. A control instruction has no writes of its own. -/
theorem exec_writes {i : Instr} {s t : State} (h : exec i s = .next t) :
    ∃ u, Writes s u ∧ FlowKept u t ∧ (i.topBits = 1 → u = s) := by
  have flowOnly (hst : FlowKept s t) : ∃ u, Writes s u ∧ FlowKept u t ∧ (i.topBits = 1 → u = s) :=
    ⟨s, .none s, hst, fun _ => rfl⟩
  cases exec_effect i s t h with
  | refused e arithmetic => exact flowOnly (.raiseCheck s e arithmetic)
  | trapped raised => exact flowOnly (.abort s raised)
  | busError => exact flowOnly (.dataBusError s)
  | computed raised flags u hu _ hg =>
    have flags : FlowKept u { u with est := withFlags u.est flags } := by constructor <;> rfl
    exact ⟨u, .files s.mem s.reservation hu (.inl rfl) (.inl rfl), ((flags.mark raised).advance).retire s,
      fun hone => by omega⟩
  | moved u hu r hr hg =>
    exact ⟨_, .files s.mem r (hu.withReservation r) (.inl rfl) (hr.imp_right .inr), (FlowKept.refl _).advance.retire s,
      fun hone => by omega⟩
  | stored addr n v u r _ hu hr hg =>
    exact ⟨u, .files _ r hu.regWrites (.inr ⟨addr, n, v, rfl⟩) (hr.imp_right .inl), (FlowKept.refl u).advance.retire s,
      fun hone => by omega⟩
  | notStored u hu hg =>
    exact ⟨u, .files s.mem none hu.regWrites (.inl rfl) (.inr (.inl rfl)), (FlowKept.refl u).advance.retire s,
      fun hone => by omega⟩
  | special m d x hi hc => exact ⟨_, .special m d x hc, (FlowKept.refl _).retire s, fun hone => by subst hi; cases hone⟩
  | transferred a p v => exact flowOnly (FlowKept.retire (by constructor <;> rfl) s)
  | notTaken => exact flowOnly ((FlowKept.refl s).advance.retire s)
  | returned p => exact flowOnly (FlowKept.retire (by constructor <;> rfl) s)
  | leftInterrupt p => exact flowOnly (((FlowKept.refl s).leaveInterrupt p).retire s)
  | leftException p => exact flowOnly (((FlowKept.refl s).leaveException p).retire s)
  | leftNmi p => exact flowOnly (((FlowKept.refl s).leaveNmi p).retire s)
  | paused n => exact flowOnly (by constructor <;> rfl)

/-- What the fetch and the word at IC can come to (R129, R413, R419). -/
theorem fetchAndRun_cases {s u : State} (h : fetchAndRun s = .next u) :
    u = s.fetchBusError ∨ u = { s with ir := s.fetchWord }.invalidInstruction
      ∨ ∃ i, exec i { s with ir := s.fetchWord } = .next u := by
  unfold fetchAndRun at h
  split at h
  · exact .inl (Host.Outcome.next.inj h).symm
  · split at h
    · exact .inr (.inr ⟨_, h⟩)
    · exact .inr (.inl (Host.Outcome.next.inj h).symm)

/-- A property that program flow keeps and the writes of every instruction keep holds of the state in which a step's
events arrive. -/
theorem EventsMeet.rule {P : State → Prop} (hflow : ∀ {s t}, FlowKept s t → P s → P t)
    (hwrites : ∀ {s u}, Writes s u → P s → P u) {s u : State} (h : EventsMeet s u) (hs : P s) : P u := by
  rcases h with ⟨-, rfl⟩ | ⟨-, -, rfl⟩ | ⟨-, -, h⟩
  · exact hs
  · exact hflow (.pauseCycle s) hs
  · have hready : P s.ready := hflow (.boundary s) hs
    rcases fetchAndRun_cases h with rfl | rfl | ⟨i, h⟩
    · exact hflow (.fetchBusError _) hready
    · exact hflow (.invalidInstruction _ _) hready
    · obtain ⟨v, hv, hvu, -⟩ := exec_writes h
      exact hflow hvu (hwrites hv (hflow (by constructor <;> rfl) hready))

end Sys2Proof.Machine
end

section
/-! PROOFS. What transfers and control instructions keep (R35, R350, R388). -/
namespace Sys2Proof.Machine

/-- A failed check of an instruction outside the arithmetic/logic group keeps EST (R35, R408). -/
theorem State.raiseCheck_est (s : State) (e : Exc) : (s.raiseCheck e false).est = s.est :=
  s.raiseCheck_rule (Q := fun t => t.est = s.est) e false (fun _ => by simp) fun _ => by simp [State.skip]

theorem RegWrites.est {s u : State} (h : RegWrites s u) : u.est = s.est := by rw [h.frame]

/-- Only arithmetic/logic instructions and MOV to a special register write EST (R35, R38). -/
theorem exec_est {i : Instr} {s t : State} (h : exec i s = .next t) (hg : i.topBits ≠ 0)
    (hspc : ∀ m d x, i ≠ .movSpcReg m d x) : t.est = s.est := by
  cases exec_effect i s t h with
  | refused e arithmetic ha =>
    obtain rfl : arithmetic = false := by simpa using fun harith => hg (ha harith)
    exact s.raiseCheck_est e
  | trapped raised => simp
  | busError => simp [State.dataBusError]
  | computed raised flags u _ _ hzero => exact absurd hzero hg
  | moved u hu => simp [hu.est]
  | stored addr n v u r _ hu => simp [hu.regWrites.est]
  | notStored u hu => simp [hu.regWrites.est]
  | special m d x hi => exact absurd hi (hspc m d x)
  | transferred a p v => simp [State.transfer]
  | notTaken => simp
  | returned p => simp
  | leftInterrupt p => simp
  | leftException p => simp
  | leftNmi p => simp
  | paused n => rfl

/-- Settles O19: bits 31:30 of the word are the group of the instruction, which bounds its effects: a control
instruction has no writes of its own beside program flow. -/
theorem transferAndControlKeepEst : Obligations.TransferAndControlKeepEst := by
  intro i s t hw h
  rw [field_encode_topBits i hw]
  refine ⟨fun hspc hg => exec_est h hg hspc, fun hg => ?_⟩
  obtain ⟨u, -, kept, hu⟩ := exec_writes h
  obtain rfl := hu hg
  exact ⟨kept.banks, kept.dsp, kept.fpr, kept.mem, kept.reservation⟩

end Sys2Proof.Machine
end

section
/-! PROOFS. Every step keeps the register files at their sizes and widths and the bank in use an existing one. -/
namespace Sys2Proof.Machine

/-! ### The widths of the parameters -/

theorem visibleWidth_le {gprWidth : Nat} (h : 8 ≤ gprWidth) : visibleWidth gprWidth ≤ gprWidth := by
  unfold visibleWidth
  repeat' split
  all_goals omega

/-- The ranges of R10 that bound the number of banks and the GPRs' width. -/
theorem Config.inRange_bounds {c : Config} (h : c.inRange = true) : 8 ≤ c.gprWidth ∧ 1 ≤ c.numBanks := by
  simp only [Config.inRange, Bool.and_eq_true, decide_eq_true_eq] at h
  omega

/-! ### Writes of the register files -/

section
variable {s : State} (n : Nat) {w : Nat} (v : BitVec w)

/-- A file of the bank in use may be replaced by one of its size and width. -/
theorem State.registersOk_withGpr (h : s.registersOk) {f : List RegBits} (hlen : f.length = s.gpr.length)
    (hfits : fitsWidth s.cfg.gprWidth s.gpr → fitsWidth s.cfg.gprWidth f) : (s.withGpr f).registersOk := by
  obtain ⟨hrange, hnum, hbank, hbanks, hrest⟩ := h
  have hgpr : s.gpr ∈ s.banks := by
    rw [State.gpr, List.getD_eq_getElem?_getD, List.getElem?_eq_getElem (hnum ▸ hbank)]
    exact List.getElem_mem _
  obtain ⟨hsize, hwidth⟩ := hbanks _ hgpr
  refine ⟨hrange, by simpa using hnum, hbank, fun g hg => ?_, hrest⟩
  rcases List.mem_or_eq_of_mem_set hg with hg | rfl
  · exact hbanks g hg
  · exact ⟨hlen.trans hsize, hfits hwidth⟩

theorem State.registersOk_writeGpr (h : s.registersOk) : (s.writeGpr n v).registersOk :=
  State.registersOk_withGpr h (length_writeFile ..)
    (fitsWidth_writeFile n v (visibleWidth_le (Config.inRange_bounds h.1).1))

theorem State.registersOk_writeDsp (h : s.registersOk) : (s.writeDsp n v).registersOk := by
  obtain ⟨hrange, hnum, hbank, hbanks, hdsp, hdspFits, hrest⟩ := h
  exact ⟨hrange, hnum, hbank, hbanks, (length_writeFile ..).trans hdsp, fitsWidth_writeFile n v le_rfl hdspFits, hrest⟩

theorem State.registersOk_writeFpr (h : s.registersOk) : (s.writeFpr n v).registersOk := by
  obtain ⟨hrange, hnum, hbank, hbanks, hdsp, hdspFits, hfpr, hfprFits, hspc⟩ := h
  exact ⟨hrange, hnum, hbank, hbanks, hdsp, hdspFits, (length_writeFile ..).trans hfpr,
    fitsWidth_writeFile n v le_rfl hfprFits, hspc⟩

theorem State.registersOk_writeFp (h : s.registersOk) : (s.writeFp n v).registersOk := by
  unfold State.writeFp
  split
  · exact State.registersOk_writeFpr n v h
  · exact State.registersOk_withGpr h (length_writeFile ..) (fitsWidth_writeFile n v le_rfl)

end

theorem RegWrites.registersOk {s u : State} (hu : RegWrites s u) (h : s.registersOk) : u.registersOk := by
  induction hu with
  | none => exact h
  | gpr n v _ ih => exact State.registersOk_writeGpr n v ih
  | fp n v _ ih => exact State.registersOk_writeFp n v ih
  | fpr n v _ ih => exact State.registersOk_writeFpr n v ih
  | dsp n v _ ih => exact State.registersOk_writeDsp n v ih

/-! ### A write of the special registers -/

@[simp] theorem State.length_spcFile (s : State) : s.spcFile.length = 27 + s.spcExtra.length := by
  simp only [State.spcFile, List.length_append, List.length_map, List.length_cons, List.length_nil]

/-- A write of the special register file keeps its size. -/
theorem State.length_spcExtra_writeSpc (s : State) (n : Nat) {w : Nat} (v : BitVec w) :
    (s.writeSpc n v).spcExtra.length = s.spcExtra.length := by
  rw [State.writeSpc, State.withSpcFile_spcExtra, List.length_map, List.length_drop, length_writeFile, s.length_spcFile,
    Nat.add_sub_cancel_left]

/-- The end of a special register write changes IC and EXM alone. -/
theorem specialWritten_frame (touched : List Nat) (t : State) :
    specialWritten touched t
      = { t with ic := (specialWritten touched t).ic, exm := (specialWritten touched t).exm } := by
  unfold specialWritten
  dsimp only
  split <;> split <;> rfl

/-- A special register write that passes its checks names registers that exist and leaves the bank in use or another
that exists (R49, R415). -/
theorem State.bank_of_specialWriteChecks {s after : State} {m : MMode} {d x : Nat}
    (h : firstHit (s.specialWriteChecks m d x after) = none) :
    after.bank = s.bank ∨ after.bank < s.banks.length := by
  rw [firstHit_none] at h
  have hmissing : (missing s.spcFile d || missing s.gpr x) = false :=
    h (missing s.spcFile d || missing s.gpr x, .unimplementedRegister)
      (by unfold State.specialWriteChecks State.moveChecks; split <;> simp)
  have hbank : (after.bank != s.bank && decide (s.banks.length ≤ after.bank) && !missing s.spcFile d
      && !missing s.gpr x) = false :=
    h (after.bank != s.bank && decide (s.banks.length ≤ after.bank) && !missing s.spcFile d && !missing s.gpr x,
      .unimplementedGprBank) (by unfold State.specialWriteChecks; split <;> simp)
  rw [Bool.or_eq_false_iff] at hmissing
  simpa [hmissing.1, hmissing.2, imp_iff_not_or] using hbank

theorem Writes.registersOk {s u : State} (hu : Writes s u) (h : s.registersOk) : u.registersOk := by
  cases hu with
  | files m r hu => exact hu.registersOk (s := { s with mem := m, reservation := r }) h
  | special m d x hc =>
    rw [specialWritten_frame]
    obtain ⟨hrange, hnum, hbank, hbanks, hdsp, hdspFits, hfpr, hfprFits, hspc⟩ := h
    refine ⟨hrange, hnum, ?_, hbanks, hdsp, hdspFits, hfpr, hfprFits, (s.length_spcExtra_writeSpc ..).trans hspc⟩
    rcases State.bank_of_specialWriteChecks hc with hsame | hexists
    · exact hsame.trans_lt hbank
    · exact hexists.trans_eq hnum

/-! ### Program flow, reset and the environment -/

theorem FlowKept.registersOk {s t : State} (h : FlowKept s t) (hs : s.registersOk) : t.registersOk := by
  simpa only [State.registersOk, State.dspWidth, h.cfg, h.banks, h.bank, h.dsp, h.fpr, h.spcExtra] using hs

@[simp] theorem length_fileAfterReset (reset file width : Nat) (f : List RegBits) :
    (fileAfterReset reset file width f).length = f.length := by
  simp [fileAfterReset]

theorem toNat_ofNat_mod_lt (k v width : Nat) : (BitVec.ofNat k (v % 2 ^ width)).toNat < 2 ^ width :=
  (BitVec.toNat_ofNat _ k ▸ Nat.mod_le _ _).trans_lt (Nat.mod_lt _ (Nat.two_pow_pos width))

/-- The free values of a reset have the width of their file (R472). -/
theorem fitsWidth_fileAfterReset (reset file width : Nat) (f : List RegBits) :
    fitsWidth width (fileAfterReset reset file width f) := by
  intro r hr
  obtain ⟨n, -, rfl⟩ := List.mem_map.1 hr
  exact toNat_ofNat_mod_lt _ _ _

theorem State.registersOk_systemReset {s : State} (h : s.registersOk) : s.systemReset.registersOk := by
  obtain ⟨hrange, hnum, -, hbanks, hdsp, -, hfpr, -, hspc⟩ := h
  have hbank : s.systemReset.bank = 0 := by simp [State.bank]
  refine ⟨hrange, by simpa using hnum, hbank ▸ (Config.inRange_bounds hrange).2, fun f hf => ?_,
    (length_fileAfterReset ..).trans hdsp, fitsWidth_fileAfterReset _ _ _ _, (length_fileAfterReset ..).trans hfpr,
    fitsWidth_fileAfterReset _ _ _ _, by simpa using hspc⟩
  obtain ⟨b, hb, rfl⟩ := List.mem_map.1 hf
  have hmem : s.banks.getD b [] ∈ s.banks := by
    rw [List.getD_eq_getElem?_getD, List.getElem?_eq_getElem (List.mem_range.1 hb)]
    exact List.getElem_mem _
  exact ⟨(length_fileAfterReset ..).trans (hbanks _ hmem).1, fitsWidth_fileAfterReset _ _ _ _⟩

theorem State.registersOk_receive {s : State} (e : Event) (h : s.registersOk) : (s.receive e).registersOk := by
  cases e with
  | irq => exact h
  | nmi => exact h
  | reset => exact State.registersOk_systemReset h
  | reservationLost => exact h
  | agentWrite a v => exact h
  | dspException k => rw [State.receive]; split <;> exact h
  | dspWrite n v =>
    obtain ⟨hrange, hnum, hbank, hbanks, hdsp, hdspFits, hrest⟩ := h
    refine ⟨hrange, hnum, hbank, hbanks, List.length_set.trans hdsp, fun r hr => ?_, hrest⟩
    rcases List.mem_or_eq_of_mem_set hr with hr | rfl
    · exact hdspFits r hr
    · exact toNat_ofNat_mod_lt _ _ _
  | refuse regions => exact h

/-- Settles O9: the instruction's writes, program flow, the events and the boundary each keep it. -/
theorem stepKeepsRegisterFiles : Obligations.StepKeepsRegisterFiles := by
  refine step_rule (M := State.registersOk) (fun s u hs hu => ?_) (fun s e => State.registersOk_receive e)
    (fun s later h => h) fun s h => (FlowKept.boundary s).registersOk h
  exact hu.rule FlowKept.registersOk Writes.registersOk hs

end Sys2Proof.Machine
end

section
/-! PROOFS. Every step keeps INSTRUCTION COUNTER within its width, the mask of the NMI at 0, the hidden state and the
reservation legal. -/
namespace Sys2Proof.Machine

/-! ### The counter and the pause -/

theorem toNat_wrapIc_lt (c : Config) (v : DWord) : (wrapIc c v).toNat < 2 ^ c.icWidth := toNat_ofNat_mod_lt _ _ _

@[simp] theorem wrapIc_zero (c : Config) : wrapIc c 0 = 0 := by simp [wrapIc]

/-- What tells whether the core runs, is paused or is in the undefined state, with the parameters. -/
def State.runStatus (s : State) : Config × Bool × Nat × Bool := (s.cfg, s.waiting, s.waitTimer, s.errorState)

theorem State.runStatus_eq_iff {s t : State} :
    t.runStatus = s.runStatus
      ↔ t.cfg = s.cfg ∧ t.waiting = s.waiting ∧ t.waitTimer = s.waitTimer ∧ t.errorState = s.errorState := by
  simp [State.runStatus]

@[simp] theorem State.runStatus_mark (s : State) (es : List Exc) : (s.mark es).runStatus = s.runStatus := by
  simp [State.runStatus]
@[simp] theorem State.runStatus_retire (s start : State) : (s.retire start).runStatus = s.runStatus := by
  simp [State.runStatus]
@[simp] theorem State.runStatus_abort (s : State) (es : List Exc) : (s.abort es).runStatus = s.runStatus := by
  simp [State.runStatus]

@[simp] theorem State.runStatus_writeSpc (s : State) (n : Nat) {w : Nat} (v : BitVec w) :
    (s.writeSpc n v).runStatus = s.runStatus := by
  simp [State.runStatus, State.writeSpc]

theorem RegWrites.runStatus {s u : State} (h : RegWrites s u) : u.runStatus = s.runStatus := by rw [h.frame]; rfl

/-- `t` is where an instruction, a trap or a skip that started in `s` goes on: IC is wrapped (R29), and the core is
paused or in the undefined state, or neither, as it was. -/
structure GoesOn (s t : State) : Prop where
  ic : ∃ v, t.ic = wrapIc s.cfg v
  runStatus : t.runStatus = s.runStatus

namespace GoesOn
variable {s u : State}

theorem retired (hic : ∃ v, u.ic = wrapIc s.cfg v) (h : u.runStatus = s.runStatus) : GoesOn s (u.retire s) :=
  ⟨by simpa using hic, by simpa using h⟩

/-- Completing goes on at IC + 1 (R28). -/
theorem advance (h : u.runStatus = s.runStatus) : GoesOn s u.advance :=
  ⟨⟨u.ic + 1, by rw [← (State.runStatus_eq_iff.1 h).1]; rfl⟩, h⟩

/-- Completing with IC, the parameters and the pause as they were goes on. -/
theorem completed (h : u.runStatus = s.runStatus) : GoesOn s (u.advance.retire s) :=
  retired (advance h).ic h

theorem abort (s : State) (raised : List Exc) : GoesOn s (s.abort raised) := ⟨⟨s.etb, s.abort_ic raised⟩, by simp⟩

theorem raiseCheck (s : State) (e : Exc) (arithmetic : Bool) : GoesOn s (s.raiseCheck e arithmetic) := by
  refine s.raiseCheck_rule e arithmetic (fun _ => abort s [e]) fun _ => completed ?_
  split <;> simp [State.runStatus]

/-- A special register write goes on at IC + 1, or at 0 after one to PROCESS ID (R47). -/
theorem specialWritten (touched : List Nat) (h : u.runStatus = s.runStatus) :
    GoesOn s (specialWritten touched u) := by
  unfold Machine.specialWritten
  dsimp only
  have hmasked : (if touched.contains 6 then { u with exm := u.exm &&& ~~~1#64 } else u).runStatus = s.runStatus := by
    split <;> exact h
  split
  · exact ⟨⟨0, (wrapIc_zero s.cfg).symm⟩, hmasked⟩
  · exact advance hmasked

end GoesOn

/-- An instruction starts a pause or goes on. -/
theorem exec_pauses_or_goesOn {i : Instr} {s t : State} (h : exec i s = .next t) :
    (∃ n, t = { s with waitTimer := n % 2 ^ s.cfg.waitTimerWidth, waiting := true }) ∨ GoesOn s t := by
  cases exec_effect i s t h with
  | paused n => exact .inl ⟨n, rfl⟩
  | refused e arithmetic => exact .inr (.raiseCheck s e arithmetic)
  | trapped raised => exact .inr (.abort s raised)
  | busError => exact .inr (.completed rfl)
  | computed raised flags u hu => exact .inr (.completed ((State.runStatus_mark ..).trans hu.runStatus))
  | moved u hu r => exact .inr (.completed (hu.runStatus))
  | stored addr n v u r _ hu => exact .inr (.completed (hu.regWrites.runStatus))
  | notStored u hu => exact .inr (.completed (hu.regWrites.runStatus))
  | special m d x =>
    have hgo := GoesOn.specialWritten (s.touchedEntries d m.width) (s.runStatus_writeSpc d (s.readGpr x m.width))
    exact .inr (.retired hgo.ic hgo.runStatus)
  | transferred a p v hv =>
    refine .inr (.retired ?_ rfl)
    cases a
    · exact ⟨_, rfl⟩
    · exact hv
  | notTaken => exact .inr (.completed rfl)
  | returned p => exact .inr (.retired ⟨_, rfl⟩ rfl)
  | leftInterrupt p => exact .inr (.retired ⟨_, rfl⟩ rfl)
  | leftException p => exact .inr (.retired ⟨_, rfl⟩ rfl)
  | leftNmi p => exact .inr (.retired ⟨_, rfl⟩ rfl)

/-! ### The hidden state inside a step -/

/-- The counter and the hidden state as an instruction or a clock cycle of a pause leaves them: a debug entry may be
due, for the boundary to take, but not where there is no boundary, in a pause and in the undefined state (R386, R412,
R419). -/
structure BeforeBoundary (s : State) : Prop where
  ic : s.ic.toNat < 2 ^ s.cfg.icWidth
  timer : s.waitTimer < 2 ^ s.cfg.waitTimerWidth
  awake : s.waiting = false → s.waitTimer = 0
  noDebug : s.waiting = true ∨ s.errorState = true → s.debugDue = false
  line : s.errorState = true → s.errorLine = true

theorem BeforeBoundary.of_hiddenOk {s : State} (hic : s.ic.toNat < 2 ^ s.cfg.icWidth) (h : s.hiddenOk) :
    BeforeBoundary s := by
  obtain ⟨htimer, hawake, hdebug, hline⟩ := h
  exact ⟨hic, htimer, hawake, fun _ => hdebug, hline⟩

/-- The counter and the hidden state of a core that runs. -/
theorem BeforeBoundary.of_running {s : State} (hic : s.ic.toNat < 2 ^ s.cfg.icWidth) (htimer : s.waitTimer = 0)
    (hwaiting : s.waiting = false) (herror : s.errorState = false) : BeforeBoundary s where
  ic := hic
  timer := htimer ▸ Nat.two_pow_pos _
  awake := fun _ => htimer
  noDebug := by simp [hwaiting, herror]
  line := by simp [herror]

/-- A boundary enters what is due, so that no debug entry is (R432). -/
theorem State.boundary_debugDue {s : State} (h : s.waiting = true ∨ s.errorState = true → s.debugDue = false) :
    s.boundary.debugDue = false := by
  unfold State.boundary
  split
  · exact h (by simpa using ‹(s.waiting || s.errorState) = true›)
  split
  · rfl
  split
  · rfl
  have hdue : s.debugDue = false := by simpa using ‹¬s.debugDue = true›
  split
  · exact hdue
  split <;> exact hdue

/-- A boundary keeps IC or moves it to a wrapped handler address (R422, R428). -/
theorem State.toNat_boundary_ic_lt {s : State} (h : s.ic.toNat < 2 ^ s.cfg.icWidth) :
    s.boundary.ic.toNat < 2 ^ s.cfg.icWidth :=
  s.boundary_rule (Q := fun t => t.ic.toNat < 2 ^ s.cfg.icWidth) h (toNat_wrapIc_lt ..) (toNat_wrapIc_lt ..)
    (toNat_wrapIc_lt ..) (toNat_wrapIc_lt ..)

theorem BeforeBoundary.boundary {s : State} (h : BeforeBoundary s) :
    s.boundary.ic.toNat < 2 ^ s.boundary.cfg.icWidth ∧ s.boundary.hiddenOk := by
  refine ⟨by simpa using State.toNat_boundary_ic_lt h.ic, ?_, ?_, State.boundary_debugDue h.noDebug, ?_⟩
  · simpa using h.timer
  · simpa using h.awake
  · simpa using h.line

theorem BeforeBoundary.receive {s : State} (e : Event) (h : BeforeBoundary s) : BeforeBoundary (s.receive e) := by
  obtain ⟨hic, htimer, hawake, hdebug, hline⟩ := h
  cases e with
  | irq => exact ⟨hic, htimer, hawake, hdebug, hline⟩
  | nmi => exact ⟨hic, htimer, hawake, hdebug, hline⟩
  | reset => exact .of_running (Nat.two_pow_pos _) rfl rfl rfl
  | reservationLost => exact ⟨hic, htimer, hawake, hdebug, hline⟩
  | agentWrite a v => exact ⟨hic, htimer, hawake, hdebug, hline⟩
  | dspException k => rw [State.receive]; split <;> exact ⟨hic, htimer, hawake, hdebug, hline⟩
  | dspWrite n v => exact ⟨hic, htimer, hawake, hdebug, hline⟩
  | refuse regions => exact ⟨hic, htimer, hawake, hdebug, hline⟩

/-- The undefined state is entered with the error line signalled and no debug entry due (R419). -/
theorem BeforeBoundary.fetchBusError {s : State} (hic : s.ic.toNat < 2 ^ s.cfg.icWidth) (h : s.hiddenOk) :
    BeforeBoundary s.fetchBusError := by
  obtain ⟨htimer, hawake, hdebug, -⟩ := h
  unfold State.fetchBusError
  dsimp only
  split
  · exact ⟨toNat_wrapIc_lt .., htimer, hawake, fun _ => hdebug, fun _ => rfl⟩
  · exact ⟨hic, htimer, hawake, fun _ => hdebug, fun _ => rfl⟩

theorem BeforeBoundary.pauseCycle {s : State} (h : BeforeBoundary s) (hwaiting : s.waiting = true)
    (herror : s.errorState = false) : BeforeBoundary s.pauseCycle := by
  rcases s.pauseCycle_cases with hcycle | hcycle | hcycle <;> rw [hcycle]
  · refine .of_running ?_ ?_ ?_ ?_ <;> simp [State.endPause, State.icNext, toNat_wrapIc_lt, herror]
  · exact h
  · exact ⟨h.ic, (Nat.sub_le ..).trans_lt h.timer, by simp [hwaiting], h.noDebug, h.line⟩

/-- What goes on from a core that runs is a core that runs. -/
theorem GoesOn.beforeBoundary {s t : State} (h : GoesOn s t) (htimer : s.waitTimer = 0) (hwaiting : s.waiting = false)
    (herror : s.errorState = false) : BeforeBoundary t := by
  obtain ⟨v, hic⟩ := h.ic
  obtain ⟨hcfg, hwaiting', htimer', herror'⟩ := State.runStatus_eq_iff.1 h.runStatus
  refine .of_running ?_ (htimer'.trans htimer) (hwaiting'.trans hwaiting) (herror'.trans herror)
  rw [hic, hcfg]
  exact toNat_wrapIc_lt s.cfg v

theorem EventsMeet.beforeBoundary {s u : State} (h : EventsMeet s u) (hic : s.ic.toNat < 2 ^ s.cfg.icWidth)
    (hs : s.hiddenOk) : BeforeBoundary u := by
  have hbefore : BeforeBoundary s := .of_hiddenOk hic hs
  rcases h with ⟨-, rfl⟩ | ⟨herror, hwaiting, rfl⟩ | ⟨herror, hwaiting, h⟩
  · exact hbefore
  · exact hbefore.pauseCycle hwaiting herror
  · obtain ⟨hreadyIc, hready⟩ : s.ready.ic.toNat < 2 ^ s.ready.cfg.icWidth ∧ s.ready.hiddenOk := hbefore.boundary
    have hreadyWaiting : s.ready.waiting = false := s.boundary_waiting.trans hwaiting
    have hreadyError : s.ready.errorState = false := s.boundary_errorState.trans herror
    have ⟨_, hawake, hdebug, hline⟩ := hready
    have hreadyTimer : s.ready.waitTimer = 0 := hawake hreadyWaiting
    rcases fetchAndRun_cases h with rfl | rfl | ⟨i, h⟩
    · exact .fetchBusError hreadyIc hready
    · exact (GoesOn.raiseCheck { s.ready with ir := s.ready.fetchWord } _ _).beforeBoundary hreadyTimer hreadyWaiting
        hreadyError
    · rcases exec_pauses_or_goesOn h with ⟨n, rfl⟩ | hgo
      · exact ⟨hreadyIc, Nat.mod_lt _ (Nat.two_pow_pos _), nofun, fun _ => hdebug, hline⟩
      · exact hgo.beforeBoundary hreadyTimer hreadyWaiting hreadyError

/-! ### The mask of the NMI and the reservation -/

theorem RegWrites.exm {s u : State} (h : RegWrites s u) : u.exm = s.exm := by rw [h.frame]
theorem RegWrites.cfg {s u : State} (h : RegWrites s u) : u.cfg = s.cfg := by rw [h.frame]
theorem RegWrites.reservation_eq {s u : State} (h : RegWrites s u) : u.reservation = s.reservation := by rw [h.frame]

/-- Entry 6 of the special register file holds the low half of EXM (R31). -/
theorem getLsbD_zero_spcFile_exm (s : State) : (s.spcFile.getD 6 0).getLsbD 0 = s.exm.getLsbD 0 := by
  change (lowEntry s.exm).getLsbD 0 = _
  rw [lowEntry, BitVec.getLsbD_ofNat, Nat.testBit_mod_two_pow, BitVec.testBit_toNat]
  rfl

theorem getLsbD_zero_entryPair (f : List RegBits) (n : Nat) : (entryPair f n).getLsbD 0 = (f.getD n 0).getLsbD 0 := by
  rw [entryPair, BitVec.getLsbD_ofNat, Nat.mul_comm, Nat.add_comm,
    Nat.testBit_two_pow_mul_add _ (Nat.mod_lt _ (Nat.two_pow_pos 32)), if_pos (by omega), Nat.testBit_mod_two_pow,
    BitVec.testBit_toNat]
  rfl

/-- A special register write that does not touch entry 6 keeps bit 0 of EXM. -/
theorem State.getLsbD_zero_exm_writeSpc {s : State} (d : Nat) {w : Nat} (v : BitVec w)
    (h : (s.touchedEntries d w).contains 6 = false) : (s.writeSpc d v).exm.getLsbD 0 = s.exm.getLsbD 0 := by
  rw [State.writeSpc, State.withSpcFile_exm, getLsbD_zero_entryPair, getD_writeFile_of_ne, getLsbD_zero_spcFile_exm]
  intro k hk hsix
  simp only [State.touchedEntries, List.contains_eq_mem, decide_eq_false_iff_not, List.mem_map, List.mem_range] at h
  exact h ⟨k, hk, hsix.symm⟩

theorem Writes.exm_getLsbD_zero {s u : State} (hu : Writes s u) (h : s.exm.getLsbD 0 = false) :
    u.exm.getLsbD 0 = false := by
  cases hu with
  | files m r hu => rw [hu.exm]; exact h
  | special m d x =>
    have hexm (touched : List Nat) (t : State) : (specialWritten touched t).exm
        = if touched.contains 6 then t.exm &&& ~~~1#64 else t.exm := by
      unfold specialWritten
      dsimp only
      split <;> split <;> rfl
    rw [hexm]
    split
    · simp
    · rename_i hsix
      rw [State.getLsbD_zero_exm_writeSpc d _ (by simpa using hsix), h]

/-- A reservation is empty, or was made before, or is over an address of the address space (R97). -/
theorem Writes.reservationOk {s u : State} (hu : Writes s u) (h : s.reservationOk) : u.reservationOk := by
  cases hu with
  | files m r hu _ hr =>
    intro a n ha
    rw [hu.reservation_eq] at ha
    rw [hu.cfg]
    rcases hr with rfl | rfl | ⟨addr, w, rfl⟩
    · exact h a n ha
    · cases ha
    · cases ha
      exact ⟨Nat.mod_lt _ (addressSpace_pos s.cfg), w, rfl⟩
  | special m d x => rw [specialWritten_frame]; exact h

theorem FlowKept.reservationOk {s t : State} (h : FlowKept s t) (hs : s.reservationOk) : t.reservationOk := by
  simpa only [State.reservationOk, h.cfg, h.reservation] using hs

theorem State.exm_getLsbD_zero_receive {s : State} (e : Event) (h : s.exm.getLsbD 0 = false) :
    (s.receive e).exm.getLsbD 0 = false := by
  cases e with
  | reset => simp [State.receive]
  | dspException k => rw [State.receive]; split <;> exact h
  | _ => exact h

theorem State.reservationOk_receive {s : State} (e : Event) (h : s.reservationOk) : (s.receive e).reservationOk := by
  cases e with
  | reset => exact nofun
  | reservationLost => exact nofun
  | agentWrite a v =>
    intro ea n hea
    simp only [State.receive] at hea
    split at hea
    · rename_i ea' n' hold
      split at hea
      · cases hea
      · cases hea
        exact h ea n hold
    · cases hea
  | dspException k => rw [State.receive]; split <;> exact h
  | _ => exact h

/-- What a step keeps of the mask and the reservation on its way to the boundary. -/
def MaskAndReservationOk (s : State) : Prop := s.exm.getLsbD 0 = false ∧ s.reservationOk

theorem FlowKept.maskAndReservationOk {s t : State} (h : FlowKept s t) (hs : MaskAndReservationOk s) :
    MaskAndReservationOk t := ⟨h.exm ▸ hs.1, h.reservationOk hs.2⟩

/-- Settles O10: a debug entry may be due inside a step, but only where a boundary stands to take it. -/
theorem stepKeepsCounterAndHiddenState : Obligations.StepKeepsCounterAndHiddenState := by
  refine step_rule (Q := fun s => s.counterOk ∧ s.hiddenOk ∧ s.reservationOk)
    (M := fun s => BeforeBoundary s ∧ MaskAndReservationOk s) ?instruction ?event
    (fun s later ⟨hb, hkept⟩ => ⟨⟨hb.ic, hb.timer, hb.awake, hb.noDebug, hb.line⟩, hkept⟩) ?boundary
  case instruction =>
    rintro s u ⟨⟨hic, hmask⟩, hhidden, hreservation⟩ hu
    exact ⟨hu.beforeBoundary hic hhidden, hu.rule FlowKept.maskAndReservationOk
      (fun hw h => ⟨hw.exm_getLsbD_zero h.1, hw.reservationOk h.2⟩) ⟨hmask, hreservation⟩⟩
  case event =>
    rintro s e ⟨hbefore, hmask, hreservation⟩
    exact ⟨hbefore.receive e, State.exm_getLsbD_zero_receive e hmask, State.reservationOk_receive e hreservation⟩
  case boundary =>
    rintro s ⟨hbefore, hkept⟩
    obtain ⟨hic, hhidden⟩ := hbefore.boundary
    obtain ⟨hmask, hreservation⟩ := (FlowKept.boundary s).maskAndReservationOk hkept
    exact ⟨⟨hic, hmask⟩, hhidden, hreservation⟩

end Sys2Proof.Machine
end

section
/-! PROOFS. What the events of the environment do at the end of a step (R19, R484). -/
namespace Sys2Proof.Machine

/-! ### What a step leaves for the events -/

/-- The parameters, the events to come, the number of resets and the sizes of the files are the same. -/
structure SameShape (s t : State) : Prop where
  cfg : t.cfg = s.cfg
  inputs : t.inputs = s.inputs
  resets : t.resets = s.resets
  banks : t.banks.length = s.banks.length
  dsp : t.dsp.length = s.dsp.length
  fpr : t.fpr.length = s.fpr.length
  spcExtra : t.spcExtra.length = s.spcExtra.length

namespace SameShape
variable {s t u : State}

theorem refl (s : State) : SameShape s s := by constructor <;> rfl

theorem trans (h : SameShape s t) (h' : SameShape t u) : SameShape s u where
  cfg := h'.cfg.trans h.cfg
  inputs := h'.inputs.trans h.inputs
  resets := h'.resets.trans h.resets
  banks := h'.banks.trans h.banks
  dsp := h'.dsp.trans h.dsp
  fpr := h'.fpr.trans h.fpr
  spcExtra := h'.spcExtra.trans h.spcExtra

theorem of_flowKept (h : FlowKept s t) : SameShape s t where
  cfg := h.cfg
  inputs := h.inputs
  resets := h.resets
  banks := congrArg List.length h.banks
  dsp := congrArg List.length h.dsp
  fpr := congrArg List.length h.fpr
  spcExtra := congrArg List.length h.spcExtra

theorem of_regWrites (h : RegWrites s t) : SameShape s t where
  cfg := h.cfg
  inputs := by rw [h.frame]
  resets := by rw [h.frame]
  banks := h.banks.1
  dsp := by
    induction h with
    | none => rfl
    | gpr n v _ ih => exact ih
    | fp n v _ ih => rw [State.writeFp_dsp, ih]
    | fpr n v _ ih => exact ih
    | dsp n v _ ih => exact (length_writeFile ..).trans ih
  fpr := by
    induction h with
    | none => rfl
    | gpr n v _ ih => exact ih
    | fp n v _ ih => rw [State.writeFp_fpr]; split <;> simp [ih]
    | fpr n v _ ih => exact (length_writeFile ..).trans ih
    | dsp n v _ ih => exact ih
  spcExtra := by rw [h.frame]

theorem of_writes (h : Writes s t) : SameShape s t := by
  cases h with
  | files m r hu => exact .trans (by constructor <;> rfl) (of_regWrites hu)
  | special m d x =>
    rw [specialWritten_frame]
    exact ⟨rfl, rfl, rfl, rfl, rfl, rfl, s.length_spcExtra_writeSpc ..⟩

end SameShape

theorem EventsMeet.sameShape {s u : State} (h : EventsMeet s u) : SameShape s u :=
  h.rule (P := SameShape s) (fun hst hs => hs.trans (.of_flowKept hst)) (fun hu hs => hs.trans (.of_writes hu))
    (.refl s)

/-- An instruction's writes keep the canonical form of memory. -/
theorem Writes.memory_wf {s u : State} (hu : Writes s u) (h : Memory.wf s.mem = true) : Memory.wf u.mem = true := by
  cases hu with
  | files m r hu hm =>
    have hmem : u.mem = m := by rw [hu.frame]
    rw [hmem]
    rcases hm with rfl | ⟨addr, n, v, rfl⟩
    · exact h
    · exact Memory.writeBytes_wf _ _ _ _ _ _ h
  | special m d x => rw [specialWritten_frame]; exact h

theorem EventsMeet.memory_wf {s u : State} (h : EventsMeet s u) (hs : Memory.wf s.mem = true) :
    Memory.wf u.mem = true :=
  h.rule (P := fun t => Memory.wf t.mem = true) (fun hst ht => hst.mem ▸ ht) Writes.memory_wf hs

/-! ### What each event does -/

/-- A DSP exception's number is 16 and its index (R453). -/
theorem dspExc_number (k : Fin 4) : (dspExc k).number = 16 + k.val := by revert k; decide

/-- Another agent's write to an address, byte by byte, and what it empties (R98). -/
theorem eventDone_agentWrite (s : State) (a : Nat) (v : Byte) (hwf : Memory.wf s.mem = true) :
    EventDone (.agentWrite a v) s (s.receive (.agentWrite a v)) := by
  refine ⟨rfl, Memory.byteAt_setByte_same _ _ _ hwf, fun b hb => Memory.byteAt_setByte_other _ _ _ _ hb, ?_⟩
  intro ea n
  have hin : inBytes s.cfg ea n (a % addressSpace s.cfg) = true
      ↔ ¬∀ k, k < n → (ea + k) % addressSpace s.cfg ≠ a % addressSpace s.cfg := by
    rw [inBytes_iff]
    push Not
    rfl
  simp only [State.receive]
  cases hres : s.reservation with
  | none => simp
  | some p =>
    obtain ⟨ea', n'⟩ := p
    dsimp only
    constructor
    · intro h
      split at h
      · cases h
      · rename_i hout
        cases h
        exact ⟨rfl, by rwa [hin, not_not] at hout⟩
    · rintro ⟨heq, hout⟩
      cases heq
      rw [if_neg (by rwa [hin, not_not])]

/-- A register the DSP unit changes takes the value's bits within its width, and the others are kept (R61). -/
theorem eventDone_dspWrite (s : State) (n : Nat) (v : RegBits) :
    EventDone (.dspWrite n v) s (s.receive (.dspWrite n v)) := by
  refine ⟨rfl, List.length_set, fun k hk => List.getElem?_set_ne hk.symm, fun hn j hj => ?_⟩
  simp only [State.receive, List.getD_eq_getElem?_getD, List.getElem?_set_self hn, Option.getD_some]
  rw [BitVec.getLsbD_ofNat, decide_eq_true hj, Bool.true_and, Nat.testBit_mod_two_pow, BitVec.testBit_toNat]

theorem eventDone_dspException (s : State) (k : Fin 4) :
    EventDone (.dspException k) s (s.receive (.dspException k)) := by
  cases hdsp : s.cfg.hasDsp with
  | false => simp [EventDone, State.receive, hdsp]
  | true =>
    refine ⟨by simp [State.receive, hdsp], fun _ n => ?_⟩
    simp only [State.receive, hdsp, if_true, BitVec.getLsbD_or, Exc.getLsbD_bit, dspExc_number]
    rw [Bool.beq_comm]

/-- In a canonical memory, what arrives does what its event says. -/
theorem eventDone_receive (s : State) (e : Event) (hwf : Memory.wf s.mem = true) : EventDone e s (s.receive e) := by
  cases e with
  | irq => rfl
  | nmi => rfl
  | reset =>
    refine ⟨?_, by simp [State.receive], by simp [State.receive], by simp [State.receive]⟩
    simp [State.receive, State.systemReset, List.map_const']
  | reservationLost => rfl
  | agentWrite a v => exact eventDone_agentWrite s a v hwf
  | dspException k => exact eventDone_dspException s k
  | dspWrite n v => exact eventDone_dspWrite s n v
  | refuse regions => rfl

theorem eventsDone_receiveAll (es : List Event) (s : State) (hwf : Memory.wf s.mem = true) :
    EventsDone es s (s.receiveAll es) := by
  induction es generalizing s with
  | nil => rfl
  | cons e es ih => exact ⟨s.receive e, eventDone_receive s e hwf, ih _ (s.receive_wf e hwf)⟩

/-! ### A reset among the events -/

/-- No event leads into the undefined state. -/
theorem State.errorState_receiveAll_of_false (es : List Event) (s : State) (h : s.errorState = false) :
    (s.receiveAll es).errorState = false := by
  induction es generalizing s with
  | nil => exact h
  | cons e es ih =>
    refine ih _ ?_
    cases e with
    | reset => rfl
    | dspException k => rw [State.receive]; split <;> exact h
    | _ => exact h

/-- A reset leads out of the undefined state (R419). -/
theorem State.errorState_receiveAll_of_reset (es : List Event) (s : State) (h : Event.reset ∈ es) :
    (s.receiveAll es).errorState = false := by
  induction es generalizing s with
  | nil => cases h
  | cons e es ih =>
    rcases List.mem_cons.1 h with rfl | h
    · exact State.errorState_receiveAll_of_false es _ rfl
    · exact ih _ h

/-- Nothing is due at the boundary after a reset (R471). -/
theorem State.boundary_systemReset (s : State) : s.systemReset.boundary = s.systemReset := by
  simp [State.boundary, State.exceptionPending, State.exceptionsEnabled]

/-- What arrives in a step whose list of events is `now`. -/
theorem State.arrive_of_cons {s : State} {now : List Event} {later : List (List Event)} (h : s.inputs = now :: later) :
    s.arrive = { s with inputs := later }.receiveAll now := by
  unfold State.arrive
  rw [h]

/-- A reset that comes alone ends the step in the state after it. -/
theorem step_of_reset {s u : State} {later : List (List Event)} (hin : s.inputs = [.reset] :: later)
    (hu : EventsMeet s u) : step s = .next { u with inputs := later }.systemReset := by
  have harrive (t : State) (ht : t.inputs = [.reset] :: later) :
      t.arrive = { t with inputs := later }.systemReset := t.arrive_one _ _ ht
  rw [step_of_eventsMeet s u hu (.inr (by rw [harrive s hin]; rfl)), harrive u (hu.sameShape.inputs.trans hin),
    State.boundary_systemReset]

/-- Settles O12: the events meet the state the step has left, with the sizes and the events to come that it started
with. -/
theorem resetRestartsAtZero : Obligations.ResetRestartsAtZero := by
  refine ⟨fun s u later hin hu => ?alone, fun s u now later hmem hreset hin hu => ?any, fun s u herror hin hu => ?none⟩
  case alone =>
    obtain ⟨hcfg, -, hresets, hbanks, hdsp, hfpr, hspc⟩ := hu.sameShape
    refine ⟨_, step_of_reset hin hu, ?_, hcfg, ?_, ?_, ?_⟩
    · simp [State.systemReset, hresets, ← hspc, List.map_const']
    · simpa using hbanks
    · simpa using hdsp
    · simpa using hfpr
  case any =>
    have herror : s.errorState = false ∨ s.arrive.errorState = false := by
      refine hreset.imp_right fun h => ?_
      rw [State.arrive_of_cons hin]
      exact State.errorState_receiveAll_of_reset now _ h
    refine ⟨_, ?_, eventsDone_receiveAll now { u with inputs := later } (hu.memory_wf hmem.1)⟩
    rw [step_of_eventsMeet s u hu herror, State.arrive_of_cons (hu.sameShape.inputs.trans hin)]
  case none =>
    rw [step_of_eventsMeet s u hu (.inl herror), State.arrive_of_nil u (hu.sameShape.inputs.trans hin)]

end Sys2Proof.Machine
end

section
/-! PROOFS. A register that its file does not have: when the first hit of an instruction's checks is UNIMPLEMENTED
REGISTER (R27, R135, R417). -/
namespace Sys2Proof.Machine

/-- The instruction is refused with UNIMPLEMENTED REGISTER (R417). -/
def MissingRegister (s : State) (i : Instr) : Prop :=
  ∃ t, exec i s = .next t ∧ Refused s t .unimplementedRegister false

theorem OpensWith.missingRegister {s : State} {i : Instr} {arithmetic : Bool} {checks : List (Bool × Exc)}
    (hi : OpensWith s i arithmetic checks) (h : firstHit checks = some .unimplementedRegister) :
    MissingRegister s i := by
  obtain ⟨t, hexec, ht⟩ := exec_refused (i := i) (s := s) (hi.2 ▸ h)
  have hother : (Exc.unimplementedRegister == Exc.unimplementedInstruction) = false := rfl
  rw [hother, Bool.and_false] at ht
  exact ⟨t, hexec, ht⟩

/-- An access that its file has registers enough for, or whose file is absent (D39, log 10). -/
theorem accessFits_eq_true (f : List RegBits) (vw w : Nat) :
    accessFits f vw w = true ↔ f = [] ∨ partsNeeded vw w ≤ f.length := by
  simp [accessFits]

theorem missing_eq_true (f : List RegBits) (n : Nat) : missing f n = true ↔ f.length ≤ n := by simp [missing]

theorem any_missing (f : List RegBits) (regs : List Nat) :
    regs.any (missing f) = true ↔ ∃ q ∈ regs, f.length ≤ q := by
  simp [missing_eq_true]

/-! ### Each list of checks -/

/-- Where the first check passes and the second does not, the second is raised (R409). -/
theorem firstHit_second {first second : Bool} (e e' : Exc) (rest : List (Bool × Exc)) (h : first = false)
    (h' : second = true) : firstHit ((first, e) :: (second, e') :: rest) = some e' := by
  rw [firstHit_cons_of_false _ _ h, firstHit_cons_of_true _ _ h']

section
variable {s : State} {regs : List Nat}

theorem GprReady.firstHit_gprChecks {w : Nat} {implemented : Bool} (h : GprReady s w []) (himp : implemented = true)
    (hq : ∃ q ∈ regs, s.gpr.length ≤ q) :
    firstHit (s.gprChecks implemented w regs) = some .unimplementedRegister := by
  obtain ⟨-, hlacks, hparts, -⟩ := h
  exact firstHit_second _ _ _ (by simp [himp, hlacks, (accessFits_eq_true ..).2 (.inr hparts)]) ((any_missing ..).2 hq)

theorem FpReady.firstHit_fpChecks {w w' : Nat} {implemented : Bool} (h : FpReady s w []) (hw : w' ≤ w)
    (himp : implemented = true) (hq : ∃ q ∈ regs, s.fpFile.length ≤ q) :
    firstHit (s.fpChecks implemented w' regs) = some .unimplementedRegister := by
  obtain ⟨-, -, hfpu, hlacks, hparts, -⟩ := h
  have hfpu : s.hasFpu = true := bne_iff_ne.2 hfpu
  have hfits := (accessFits_eq_true s.fpFile s.fpPart w').2 (.inr ((partsNeeded_mono _ hw).trans hparts))
  exact firstHit_second _ _ _ (by simp [hfpu, himp, hlacks, hfits]) ((any_missing ..).2 hq)

theorem FpReady.firstHit_convertChecks {m : MMode} {d : Nat} (h : FpReady s s.cfg.fp.width [])
    (hmode : s.hasMode m = true) (hfits : s.intFile = [] ∨ partsNeeded s.intPart m.width ≤ s.intFile.length)
    (hd : s.fpFile.length ≤ d ∨ s.intFile.length ≤ d) :
    firstHit (s.convertChecks m d) = some .unimplementedRegister := by
  obtain ⟨-, -, hfpu, hlacks, hparts, -⟩ := h
  have hfpu : s.hasFpu = true := bne_iff_ne.2 hfpu
  have hfp := (accessFits_eq_true s.fpFile s.fpPart _).2 (.inr hparts)
  have hint := (accessFits_eq_true ..).2 hfits
  exact firstHit_second _ _ _ (by simp [hfpu, hmode, hlacks, hfp, hint])
    (by simpa [missing_eq_true] using hd)

theorem firstHit_moveChecks_of_missing {m : MMode} {dst src : List RegBits} {dstVw srcVw d x : Nat}
    (hmode : s.hasTransfer m = true) (hlacks : s.lacks = false) (hdst : accessFits dst dstVw m.width = true)
    (hsrc : accessFits src srcVw m.width = true) (h : dst.length ≤ d ∨ src.length ≤ x) :
    firstHit (s.moveChecks m dst dstVw d src srcVw x) = some .unimplementedRegister :=
  firstHit_second _ _ _ (by simp [hmode, hlacks, hdst, hsrc]) (by simpa [missing_eq_true] using h)

/-- A MOV to a special register whose source does not exist moves no bank number, so its bank is no matter (log 12). -/
theorem State.firstHit_specialWriteChecks_of_missing {m : MMode} {d x : Nat} (after : State)
    (hmove : firstHit (s.moveChecks m s.spcFile s.cfg.spcWidth d s.gpr s.vw x) = some .unimplementedRegister)
    (hsys : s.systemMode = true
      ∨ ∀ j, j < partsNeeded s.cfg.spcWidth m.width → userReadOnly s.cfg ((d + j) % s.spcFile.length) = false)
    (hx : s.gpr.length ≤ x) :
    firstHit (s.specialWriteChecks m d x after) = some .unimplementedRegister := by
  rw [← s.touchedEntries_any_eq_false] at hsys
  unfold State.specialWriteChecks
  rw [List.append_assoc, List.singleton_append, firstHit_cons_of_false _ _ (by rcases hsys with h | h <;> simp [h])]
  split
  · rw [List.append_assoc, List.singleton_append,
      firstHit_cons_of_false _ _ (by simp [(missing_eq_true s.gpr x).2 hx])]
    exact firstHit_append_of_some _ hmove
  · exact firstHit_append_of_some _ (firstHit_append_of_some _ hmove)

end

/-! ### The forms -/

/-- An FP form accesses its operands at the FP width at most, or FCMP at EST's 16 bits (R305). -/
theorem opensWith_floatForms_le (s : State) (d r n : Nat) :
    ∀ q ∈ floatForms d r n, ∃ w, w ≤ max s.cfg.fp.width 16 ∧ OpensWith s q.1 true (s.fpChecks true w q.2) := by
  have plain {i : Instr} {regs : List Nat} (h : OpensWith s i true (s.fpChecks true s.cfg.fp.width regs)) :
      ∃ w, w ≤ max s.cfg.fp.width 16 ∧ OpensWith s i true (s.fpChecks true w regs) := ⟨_, le_max_left .., h⟩
  simp only [floatForms, List.forall_mem_cons, List.not_mem_nil, false_implies, implies_true, and_true]
  exact ⟨plain ⟨rfl, rfl⟩, plain ⟨rfl, rfl⟩, plain ⟨rfl, rfl⟩, plain ⟨rfl, rfl⟩, plain ⟨rfl, rfl⟩,
    ⟨_, le_rfl, rfl, rfl⟩, plain ⟨rfl, rfl⟩, plain ⟨rfl, rfl⟩, plain ⟨rfl, rfl⟩, plain ⟨rfl, rfl⟩, plain ⟨rfl, rfl⟩,
    plain ⟨rfl, rfl⟩⟩

/-- The transfers between two files with a register missing in either (R135, R173). -/
theorem transfers_missingRegister {s : State} {m : MMode} (hready : GprReady s m.width [])
    (hmode : s.hasTransfer m = true) {f : List RegBits} {vw : Nat} (hfits : f = [] ∨ partsNeeded vw m.width ≤ f.length)
    (d x : Nat) :
    (s.gpr.length ≤ d ∨ f.length ≤ x →
        firstHit (s.moveChecks m s.gpr s.vw d f vw x) = some .unimplementedRegister)
      ∧ (f.length ≤ d ∨ s.gpr.length ≤ x →
        firstHit (s.moveChecks m f vw d s.gpr s.vw x) = some .unimplementedRegister) := by
  obtain ⟨-, hlacks, hparts, -⟩ := hready
  have hgpr := (accessFits_eq_true s.gpr s.vw m.width).2 (.inr hparts)
  have hfile := (accessFits_eq_true f vw m.width).2 hfits
  exact ⟨firstHit_moveChecks_of_missing hmode hlacks hgpr hfile, firstHit_moveChecks_of_missing hmode hlacks hfile hgpr⟩

/-- Settles O29: each form opens with checks of which the second, once the first passes, is whether its registers
exist. -/
theorem missingRegistersAreRefused : Obligations.MissingRegistersAreRefused := by
  intro s m u a p d r n imm o o3 ad
  dsimp only
  refine ⟨?integer, ?product, ?memory, ?branch, ?control, ?float, ?convert, ?format, ?transfer⟩
  case integer =>
    intro hready hmode hq
    refine ⟨fun i hi => (opensWith_integerForms s m u d o i hi).missingRegister (hready.firstHit_gprChecks hmode hq),
      fun hdiv => (opensWith_div s m u d o).missingRegister (hready.firstHit_gprChecks (by simp [hmode, hdiv]) hq)⟩
  case product =>
    intro hready hmode hmul
    have himp : (s.hasMode m && s.cfg.hasMul) = true := by simp [hmode, hmul]
    refine ⟨fun hq => (opensWith_mul s m u d o).missingRegister (hready.firstHit_gprChecks himp hq), fun hq => ?_⟩
    have fused i hi := (opensWith_fused s m u d r o3 i hi).missingRegister (hready.firstHit_gprChecks himp hq)
    exact ⟨fused _ (.head _), fused _ (.tail _ (.head _))⟩
  case memory =>
    intro hready hmode hq i hi
    exact (opensWith_memoryForms s m d ad i hi).missingRegister (hready.firstHit_gprChecks hmode hq)
  case branch =>
    intro hready hmode c g tgt hq
    exact (opensWith_branch s m a p c g tgt).missingRegister (hready.firstHit_gprChecks hmode hq)
  case control =>
    intro hready hd
    have hit := hready.firstHit_gprChecks (regs := [d]) rfl ⟨d, List.mem_singleton_self d, hd⟩
    exact ⟨OpensWith.missingRegister ⟨rfl, rfl⟩ hit, OpensWith.missingRegister ⟨rfl, rfl⟩ hit⟩
  case float =>
    intro hready q hq hx
    obtain ⟨w, hw, hi⟩ := opensWith_floatForms_le s d r n q hq
    exact hi.missingRegister (hready.firstHit_fpChecks hw rfl hx)
  case convert =>
    intro hready hmode hfits hd
    have hit := hready.firstHit_convertChecks hmode hfits hd
    exact ⟨OpensWith.missingRegister ⟨rfl, rfl⟩ hit, OpensWith.missingRegister ⟨rfl, rfl⟩ hit⟩
  case format =>
    intro hready hd q hq hformat hwidth
    have hit := hready.firstHit_fpChecks le_rfl (implemented := s.convertsFormat q.2.2)
      (by simp [State.convertsFormat, hformat, hwidth]) ⟨d, List.mem_singleton_self d, hd⟩
    obtain ⟨hext, hsqz⟩ := opensWith_formatForms s d q hq
    exact ⟨hext.missingRegister hit, hsqz.missingRegister hit⟩
  case transfer =>
    intro hready hmode
    have ⟨_, _, hparts, _⟩ := hready
    refine ⟨fun h => ?gpr, fun hd => ?imm, fun hfits => ?spc, fun hfits => ?dsp, fun hfits => ?fpr⟩
    case gpr =>
      exact OpensWith.missingRegister ⟨rfl, rfl⟩ ((transfers_missingRegister hready hmode (.inr hparts) d r).1 h)
    case imm =>
      exact OpensWith.missingRegister ⟨rfl, rfl⟩
        (hready.firstHit_gprChecks hmode ⟨d, List.mem_singleton_self d, hd⟩)
    case spc =>
      obtain ⟨hto, hfrom⟩ := transfers_missingRegister hready hmode hfits d r
      exact ⟨fun h => OpensWith.missingRegister ⟨rfl, rfl⟩ (hto h), fun hsys hr => OpensWith.missingRegister ⟨rfl, rfl⟩
        (State.firstHit_specialWriteChecks_of_missing _ (hfrom (.inr hr)) hsys hr)⟩
    case dsp =>
      obtain ⟨hto, hfrom⟩ := transfers_missingRegister hready hmode hfits d r
      exact ⟨fun h => OpensWith.missingRegister ⟨rfl, rfl⟩ (hto h),
        fun h => OpensWith.missingRegister ⟨rfl, rfl⟩ (hfrom h)⟩
    case fpr =>
      obtain ⟨hto, hfrom⟩ := transfers_missingRegister hready hmode hfits d r
      exact ⟨fun h => OpensWith.missingRegister ⟨rfl, rfl⟩ (hto h),
        fun h => OpensWith.missingRegister ⟨rfl, rfl⟩ (hfrom h)⟩

end Sys2Proof.Machine
end

section
/-! PROOFS. Rounding: the mode UCR selects (R59), the neighbour a mode names (R284), and the result in a format with its
overflow and tininess (R286, R288, R293; log 16). -/
namespace Sys2Proof.Machine

/-! ### The neighbour a mode names -/

/-- What the dropped part is, as a fraction of the unit that rounding keeps. -/
def Dropped.Describes (p : Dropped) (frac : ℚ) : Prop :=
  match p with
  | .nothing => frac = 0
  | .belowHalf => 0 < frac ∧ frac < 1 / 2
  | .half => frac = 1 / 2
  | .aboveHalf => 1 / 2 < frac ∧ frac < 1

theorem Dropped.Describes.bounds {p : Dropped} {frac : ℚ} (h : p.Describes frac) : 0 ≤ frac ∧ frac < 1 := by
  cases p with
  | nothing => rw [show frac = 0 from h]; norm_num
  | belowHalf => exact ⟨h.1.le, h.2.trans (by norm_num)⟩
  | half => rw [show frac = 1 / 2 from h]; norm_num
  | aboveHalf => exact ⟨(by norm_num : (0 : ℚ) ≤ 1 / 2).trans h.1.le, h.2⟩

theorem Dropped.Describes.eq_zero_iff {p : Dropped} {frac : ℚ} (h : p.Describes frac) : frac = 0 ↔ p = .nothing := by
  cases p with
  | nothing => exact iff_of_true h rfl
  | belowHalf => exact iff_of_false h.1.ne' nofun
  | half => exact iff_of_false (by rw [show frac = 1 / 2 from h]; norm_num) nofun
  | aboveHalf => exact iff_of_false (by linarith [h.1]) nofun

theorem Dropped.Describes.eq_half_iff {p : Dropped} {frac : ℚ} (h : p.Describes frac) : frac = 1 / 2 ↔ p = .half := by
  cases p with
  | nothing => exact iff_of_false (by rw [show frac = 0 from h]; norm_num) nofun
  | belowHalf => exact iff_of_false h.2.ne nofun
  | half => exact iff_of_true h rfl
  | aboveHalf => exact iff_of_false h.1.ne' nofun

/-- The low `k` bits of a number, with something below them or nothing, as a fraction of `2^k`. -/
theorem droppedPart_describes {rem k : Nat} {sticky : Bool} {below : ℚ} (hrem : rem < 2 ^ k)
    (hexact : sticky = false → below = 0) (hsticky : sticky = true → 0 < below ∧ below < 1 ∧ 0 < k) :
    (droppedPart rem k sticky).Describes ((rem + below) / 2 ^ k) := by
  have hpow : (0 : ℚ) < 2 ^ k := by positivity
  have hremQ : (rem : ℚ) + 1 ≤ 2 ^ k := by exact_mod_cast hrem
  have hbelow : 0 ≤ below ∧ below < 1 := by
    cases sticky with
    | false => rw [hexact rfl]; norm_num
    | true => exact ⟨(hsticky rfl).1.le, (hsticky rfl).2.1⟩
  have habove {a : Nat} (hle : a ≤ rem) (hne : ¬(rem = a ∧ sticky = false)) : (a : ℚ) < rem + below := by
    cases sticky with
    | false =>
      have : (a : ℚ) < rem := by exact_mod_cast lt_of_le_of_ne hle fun h => hne ⟨h.symm, rfl⟩
      linarith
    | true =>
      have : (a : ℚ) ≤ rem := by exact_mod_cast hle
      linarith [(hsticky rfl).1]
  unfold droppedPart
  split
  · rename_i h
    rw [h.1, hexact h.2]
    simp [Dropped.Describes]
  rename_i hsome
  have hpos : (0 : ℚ) < rem + below := by exact_mod_cast habove (Nat.zero_le rem) hsome
  have hk : k ≠ 0 := by
    rintro rfl
    cases sticky with
    | false => exact hsome ⟨by omega, rfl⟩
    | true => exact absurd (hsticky rfl).2.2 (lt_irrefl 0)
  obtain ⟨j, rfl⟩ := Nat.exists_eq_add_one_of_ne_zero hk
  have hdouble : (2 : ℚ) ^ (j + 1) = 2 * (2 ^ j : Nat) := by push_cast; ring
  rw [hdouble] at hpow hremQ ⊢
  rw [pow_succ, Nat.mul_comm]
  split
  · rename_i hlt
    have hlast : (rem : ℚ) + 1 ≤ (2 ^ j : Nat) := by exact_mod_cast (by omega : rem < 2 ^ j)
    exact ⟨div_pos hpos hpow, by rw [div_lt_div_iff₀ hpow two_pos]; linarith⟩
  rename_i hge
  split
  · rename_i h
    have heq : rem = 2 ^ j := by omega
    have hne : ((2 ^ j : Nat) : ℚ) ≠ 0 := by positivity
    rw [hexact h.2, heq]
    simp only [Dropped.Describes]
    field_simp
    ring
  · rename_i h
    have hgt := habove (a := 2 ^ j) (by omega) fun ⟨heq, hs⟩ => h ⟨by omega, hs⟩
    exact ⟨by rw [div_lt_div_iff₀ two_pos hpow]; linarith, by rw [div_lt_one hpow]; linarith⟩

/-! A number between two multiples of a unit, and the one of them taken: the lower, or with `away` the upper. -/

section
variable {q : Nat} {frac unit : ℚ} (hunit : 0 < unit) (h0 : 0 ≤ frac) (h1 : frac < 1) (away : Bool)

include hunit h0 h1 in
theorem exists_eq_multiple_iff : (∃ k : Nat, (q + frac) * unit = k * unit) ↔ frac = 0 := by
  constructor
  · rintro ⟨k, hk⟩
    have hk : (q : ℚ) + frac = k := mul_right_cancel₀ hunit.ne' hk
    have hle : q ≤ k := by exact_mod_cast (le_add_of_nonneg_right h0).trans_eq hk
    have hlt : k < q + 1 := by exact_mod_cast hk.symm.trans_lt (add_lt_add_right h1 (q : ℚ))
    obtain rfl : k = q := by omega
    linarith
  · rintro rfl
    exact ⟨q, by rw [add_zero]⟩

include hunit h0 h1 in
theorem taken_le_iff : ((q + away.toNat : Nat) : ℚ) * unit ≤ (q + frac) * unit ↔ away = false := by
  rw [mul_le_mul_iff_of_pos_right hunit]
  cases away
  · simpa using h0
  · simpa using h1

include hunit h0 h1 in
theorem le_taken_iff : (q + frac) * unit ≤ ((q + away.toNat : Nat) : ℚ) * unit ↔ away = true ∨ frac = 0 := by
  rw [mul_le_mul_iff_of_pos_right hunit]
  cases away
  · simpa using ⟨fun h => le_antisymm h h0, fun h => h.le⟩
  · simpa using h1.le

include hunit h0 h1 in
theorem abs_taken_sub : |((q + away.toNat : Nat) : ℚ) * unit - (q + frac) * unit|
    = (if away then 1 - frac else frac) * unit := by
  have hdiff : ((q + away.toNat : Nat) : ℚ) * unit - (q + frac) * unit = (away.toNat - frac) * unit := by
    push_cast; ring
  rw [hdiff, abs_mul, abs_of_pos hunit]
  cases away
  · simp [abs_of_nonneg h0]
  · simp [abs_of_pos (sub_pos.2 h1)]

include hunit h0 h1 in
theorem taken_near_iff : |((q + away.toNat : Nat) : ℚ) * unit - (q + frac) * unit| * 2 ≤ unit
    ↔ if away then 1 / 2 ≤ frac else frac ≤ 1 / 2 := by
  rw [abs_taken_sub hunit h0 h1, mul_right_comm, mul_le_iff_le_one_left hunit]
  split <;> constructor <;> intro <;> linarith

include hunit h0 h1 in
theorem taken_tie_iff :
    |((q + away.toNat : Nat) : ℚ) * unit - (q + frac) * unit| * 2 = unit ↔ frac = 1 / 2 := by
  rw [abs_taken_sub hunit h0 h1, mul_right_comm, mul_eq_right₀ hunit.ne']
  split <;> constructor <;> intro <;> linarith

end

/-- A mode that tells less from more than a half takes the nearer neighbour, whatever it does on a tie. -/
theorem roundsAway_nearest {mode : RoundingMode} {neg odd : Bool} {p : Dropped} {frac : ℚ} (hp : p.Describes frac)
    (hbelow : roundsAway mode neg odd .belowHalf = false) (habove : roundsAway mode neg odd .aboveHalf = true) :
    if roundsAway mode neg odd p then 1 / 2 ≤ frac else frac ≤ 1 / 2 := by
  cases p with
  | nothing => rw [show frac = 0 from hp]; norm_num [roundsAway]
  | belowHalf => rw [hbelow]; exact hp.2.le
  | half => rw [show frac = 1 / 2 from hp]; split <;> exact le_rfl
  | aboveHalf => rw [habove]; exact hp.1.le

/-- The multiple of a unit that `roundsAway` picks for a number with this dropped part is the one the mode names
(R284). -/
theorem roundsTo_of_describes (mode : RoundingMode) (neg : Bool) (q : Nat) {p : Dropped} {frac unit : ℚ}
    (hunit : 0 < unit) (hp : p.Describes frac) :
    RoundsTo mode neg ((q + frac) * unit) (q + (roundsAway mode neg (q % 2 == 1) p).toNat) unit (p != .nothing) := by
  obtain ⟨h0, h1⟩ := hp.bounds
  refine ⟨?exact, ?same, ?within, ?directed, ?tie⟩
  case exact => rw [bne_eq_false_iff_eq, exists_eq_multiple_iff hunit h0 h1, hp.eq_zero_iff]
  case same =>
    intro h
    obtain rfl : p = .nothing := by simpa using h
    obtain rfl : frac = 0 := hp
    simp [roundsAway]
  case within =>
    rw [abs_taken_sub hunit h0 h1, mul_lt_iff_lt_one_left hunit]
    split
    · rename_i haway
      have hfrac : frac ≠ 0 := fun h => by
        rw [hp.eq_zero_iff.1 h] at haway
        cases haway
      exact sub_lt_self 1 (lt_of_le_of_ne h0 hfrac.symm)
    · exact h1
  case directed =>
    cases mode <;> simp only [taken_le_iff hunit h0 h1, le_taken_iff hunit h0 h1, taken_near_iff hunit h0 h1]
    case toZero => cases p <;> rfl
    case zeroAway => cases p <;> simp [roundsAway, hp.eq_zero_iff]
    case positive => cases p <;> cases neg <;> simp [roundsAway, hp.eq_zero_iff]
    case negative => cases p <;> cases neg <;> simp [roundsAway, hp.eq_zero_iff]
    all_goals exact roundsAway_nearest hp rfl rfl
  case tie =>
    rw [taken_tie_iff hunit h0 h1]
    intro hhalf
    obtain rfl := hp.eq_half_iff.1 hhalf
    have hparity : (q + (q % 2 == 1).toNat) % 2 = 0 ∧ (q + (!(q % 2 == 1)).toNat) % 2 = 1 := by
      rcases Nat.mod_two_eq_zero_or_one q with h | h <;> simp [h, Nat.add_mod]
    cases mode <;> simp only [taken_le_iff hunit h0 h1, le_taken_iff hunit h0 h1]
    case nearestEven => exact hparity.1
    case nearestOdd => exact hparity.2
    case nearestPositive => cases neg <;> simp [roundsAway]
    case nearestNegative => cases neg <;> simp [roundsAway]
    all_goals simp [roundsAway]

/-- What a number stands for is the number and a part of its last place below it. -/
theorem StandsFor.exists_below {sig : Nat} {exp : Int} {sticky : Bool} {x : ℚ} (hx : StandsFor sig exp sticky x) :
    ∃ below : ℚ, x = (sig + below) * 2 ^ exp ∧ (sticky = true → 0 < below ∧ below < 1)
      ∧ (sticky = false → below = 0) := by
  have hexp : (0 : ℚ) < 2 ^ exp := by positivity
  cases sticky with
  | false => exact ⟨0, by rw [add_zero]; exact hx, nofun, fun _ => rfl⟩
  | true =>
    obtain ⟨hlow, hhigh⟩ : (sig : ℚ) * 2 ^ exp < x ∧ x < ((sig : ℚ) + 1) * 2 ^ exp := hx
    refine ⟨x / 2 ^ exp - sig, by field_simp; ring, fun _ => ⟨?_, ?_⟩, nofun⟩
    · rw [sub_pos, lt_div_iff₀ hexp]; exact hlow
    · rw [sub_lt_iff_lt_add', div_lt_iff₀ hexp]; exact hhigh

/-- What `sig * 2^exp` stands for, as the multiple of `2^e` at or below it and the fraction that rounding drops. -/
theorem roundAt_parts {sig : Nat} {exp e : Int} {sticky : Bool} {x : ℚ} (hx : StandsFor sig exp sticky x)
    (hsticky : sticky = true → exp < e) :
    ∃ frac : ℚ, x = ((sig * 2 ^ (exp - e).toNat / 2 ^ (e - exp).toNat : Nat) + frac) * 2 ^ e
      ∧ (droppedPart (sig * 2 ^ (exp - e).toNat % 2 ^ (e - exp).toNat) (e - exp).toNat sticky).Describes frac := by
  obtain ⟨below, rfl, hbelow, hexact⟩ := hx.exists_below
  rcases le_or_gt e exp with hle | hlt
  · obtain rfl : sticky = false := by
      by_contra h
      exact absurd (hsticky (by simpa using h)) (by omega)
    obtain rfl : below = 0 := hexact rfl
    obtain ⟨j, rfl⟩ := Int.le.dest hle
    have hkept : (e - (e + j)).toNat = 0 := by omega
    rw [hkept, add_sub_cancel_left, Int.toNat_natCast, pow_zero, Nat.div_one, Nat.mod_one]
    refine ⟨0, ?_, by simp [droppedPart, Dropped.Describes]⟩
    rw [zpow_add₀ two_ne_zero, zpow_natCast]
    push_cast
    ring
  · obtain ⟨k, rfl⟩ := Int.le.dest hlt.le
    have hscaled : sig * 2 ^ (exp - (exp + k)).toNat = sig := by
      rw [Int.toNat_of_nonpos (by omega), pow_zero, mul_one]
    rw [hscaled, add_sub_cancel_left, Int.toNat_natCast]
    refine ⟨((sig % 2 ^ k : Nat) + below) / 2 ^ k, ?_, droppedPart_describes (Nat.mod_lt _ (Nat.two_pow_pos k)) hexact
      fun h => ⟨(hbelow h).1, (hbelow h).2, by omega⟩⟩
    have hsig : (sig : ℚ) = 2 ^ k * (sig / 2 ^ k : Nat) + (sig % 2 ^ k : Nat) := by
      exact_mod_cast (Nat.div_add_mod sig (2 ^ k)).symm
    rw [zpow_add₀ two_ne_zero, zpow_natCast]
    field_simp
    rw [hsig]
    ring

/-- `roundAt` takes the neighbour the mode names (R284). -/
theorem roundAt_roundsTo (mode : RoundingMode) (neg : Bool) {sig : Nat} {exp e : Int} {sticky : Bool} {x : ℚ}
    (hx : StandsFor sig exp sticky x) (hsticky : sticky = true → exp < e) :
    RoundsTo mode neg x (roundAt mode neg sig exp sticky e).1 (2 ^ e) (roundAt mode neg sig exp sticky e).2 := by
  obtain ⟨frac, hfrac, hp⟩ := roundAt_parts hx hsticky
  rw [hfrac]
  exact roundsTo_of_describes mode neg _ (by positivity) hp

/-- The mode that FP ROUNDING MODE, UCR[11:8], selects (R59, R284). -/
theorem State.roundingMode_of_ucr (s : State) :
    ∀ q ∈ [(0#4, RoundingMode.nearestEven), (1#4, .nearestOdd), (2#4, .nearestAway), (3#4, .nearestPositive),
      (4#4, .nearestNegative), (5#4, .nearestZero), (10#4, .zeroAway), (11#4, .positive), (12#4, .negative),
      (13#4, .toZero)], s.ucr.extractLsb' 8 4 = q.1 → s.roundingMode = q.2 := by
  have hcode : s.ucr.toNat / 256 % 16 = (s.ucr.extractLsb' 8 4).toNat := by
    simp [BitVec.extractLsb'_toNat, Nat.shiftRight_eq_div_pow]
  unfold State.roundingMode
  simp only [List.forall_mem_cons, List.not_mem_nil, false_implies, implies_true, and_true]
  refine ⟨?_, ?_, ?_, ?_, ?_, ?_, ?_, ?_, ?_, ?_⟩ <;> intro h <;> rw [hcode, h] <;> rfl

end Sys2Proof.Machine
end

section
/-! PROOFS. A number rounded to a format: its pattern, its overflow and its tininess (R286, R288, R293, D30). -/
namespace Sys2Proof.Machine

/-! ### Patterns -/

section
variable (f : FpFormat) (neg : Bool) {m : Nat}

/-- The fields of a pattern with its sign bit apart (R281). -/
theorem fields_signPattern_add (hm : m < 2 ^ (f.expBits + f.manBits)) :
    fpSign f (signPattern f neg + m) = neg ∧ fpExpField f (signPattern f neg + m) = m / 2 ^ f.manBits
      ∧ fpManField f (signPattern f neg + m) = m % 2 ^ f.manBits := by
  have hpos := Nat.two_pow_pos (f.expBits + f.manBits)
  have hshift : signPattern f neg = 2 ^ f.manBits * (2 ^ f.expBits * neg.toNat) := by
    rw [signPattern, pow_add]; ring
  refine ⟨?_, ?_, ?_⟩
  · rw [fpSign, signPattern, Nat.mul_comm, Nat.mul_add_div hpos, Nat.div_eq_of_lt hm]
    cases neg <;> rfl
  · rw [fpExpField, hshift, Nat.mul_add_div (Nat.two_pow_pos _), Nat.mul_add_mod]
    exact Nat.mod_eq_of_lt (Nat.div_lt_of_lt_mul (by rwa [← pow_add, Nat.add_comm]))
  · rw [fpManField, hshift, Nat.mul_add_mod]

theorem signPattern_add_lt (hm : m < 2 ^ (f.expBits + f.manBits)) : signPattern f neg + m < 2 ^ f.width := by
  have hwidth : 2 ^ f.width = 2 * 2 ^ (f.expBits + f.manBits) := by
    rw [FpFormat.width, Nat.add_assoc, pow_add, pow_one]
  have hsign : neg.toNat * 2 ^ (f.expBits + f.manBits) ≤ 1 * 2 ^ (f.expBits + f.manBits) :=
    Nat.mul_le_mul_right _ (Bool.toNat_le neg)
  rw [hwidth, signPattern]
  omega

/-- The pattern of a finite number or an infinity has its exponent field below or at the largest (R286). -/
theorem unpack_signPattern_add (hm : m < 2 ^ (f.expBits + f.manBits)) :
    unpack f (signPattern f neg + m)
      = if m / 2 ^ f.manBits = 2 ^ f.expBits - 1 then
          (if m % 2 ^ f.manBits = 0 then .infinite neg
           else .nan (m % 2 ^ f.manBits / 2 ^ (f.manBits - 1) % 2 == 0))
        else if m / 2 ^ f.manBits = 0 then
          (if m % 2 ^ f.manBits = 0 then .zero neg else .finite neg (m % 2 ^ f.manBits) (fpMinExp f))
        else
          .finite neg (2 ^ f.manBits + m % 2 ^ f.manBits) (fpMinExp f + (((m / 2 ^ f.manBits : Nat) : Int) - 1)) := by
  obtain ⟨hsign, hexp, hman⟩ := fields_signPattern_add f neg hm
  rw [unpack, hsign, hexp, hman]

end

/-- The magnitude of a finite value. -/
theorem abs_toRat_finite (neg : Bool) (sig : Nat) (exp : Int) :
    |(FpVal.finite neg sig exp).toRat| = (sig : ℚ) * 2 ^ exp := by
  cases neg
  · simp [FpVal.toRat]
  · simp [FpVal.toRat]

/-- The patterns of the two infinities (R286). -/
theorem unpack_infPattern (f : FpFormat) (neg : Bool) :
    unpack f (infPattern f neg) = .infinite neg ∧ infPattern f neg < 2 ^ f.width := by
  have hpos := Nat.two_pow_pos f.manBits
  have hm : (2 ^ f.expBits - 1) * 2 ^ f.manBits < 2 ^ (f.expBits + f.manBits) := by
    rw [pow_add]
    exact Nat.mul_lt_mul_of_pos_right (Nat.sub_lt (Nat.two_pow_pos _) one_pos) hpos
  refine ⟨?_, signPattern_add_lt f neg hm⟩
  rw [infPattern, unpack_signPattern_add f neg hm, Nat.mul_div_cancel _ hpos, Nat.mul_mod_left, if_pos rfl, if_pos rfl]

/-- A zero or a finite number of this sign and magnitude. -/
def FpVal.Denotes (v : FpVal) (neg : Bool) (x : ℚ) : Prop := v.isNumber = true ∧ v.negative = neg ∧ |v.toRat| = x

theorem FpVal.denotes_zero (neg : Bool) : (FpVal.zero neg).Denotes neg 0 := ⟨rfl, rfl, abs_zero⟩

theorem FpVal.denotes_finite (neg : Bool) {sig : Nat} (hsig : sig ≠ 0) (exp : Int) :
    (FpVal.finite neg sig exp).Denotes neg (sig * 2 ^ exp) :=
  ⟨bne_iff_ne.2 hsig, rfl, abs_toRat_finite neg sig exp⟩

/-- The pattern of `n` units in the `j`th last place from the lowest, for a number below the infinities: where `n` has
one bit more than the significand, it is the next exponent's first number (R281, R286). -/
theorem unpack_number (f : FpFormat) (neg : Bool) {j n : Nat} (hn : n ≤ 2 ^ (f.manBits + 1))
    (hj : j = 0 ∨ 2 ^ f.manBits ≤ n) (hfinite : j * 2 ^ f.manBits + n < (2 ^ f.expBits - 1) * 2 ^ f.manBits) :
    (unpack f (signPattern f neg + j * 2 ^ f.manBits + n)).Denotes neg (n * 2 ^ (fpMinExp f + j))
      ∧ signPattern f neg + j * 2 ^ f.manBits + n < 2 ^ f.width := by
  have hpos := Nat.two_pow_pos f.manBits
  have hm : j * 2 ^ f.manBits + n < 2 ^ (f.expBits + f.manBits) := by
    refine hfinite.trans_le ?_
    rw [pow_add]
    exact Nat.mul_le_mul_right _ (Nat.sub_le ..)
  have hfield : (j * 2 ^ f.manBits + n) / 2 ^ f.manBits ≠ 2 ^ f.expBits - 1 :=
    ((Nat.div_lt_iff_lt_mul hpos).2 hfinite).ne
  have hdiv : (j * 2 ^ f.manBits + n) / 2 ^ f.manBits = j + n / 2 ^ f.manBits := by
    rw [Nat.mul_comm, Nat.mul_add_div hpos]
  have hmod : (j * 2 ^ f.manBits + n) % 2 ^ f.manBits = n % 2 ^ f.manBits := by rw [Nat.mul_comm, Nat.mul_add_mod]
  rw [Nat.add_assoc]
  refine ⟨?_, signPattern_add_lt f neg hm⟩
  rw [unpack_signPattern_add f neg hm, if_neg hfield, hdiv, hmod]
  rcases Nat.lt_or_ge n (2 ^ f.manBits) with hlow | hhigh
  · obtain rfl : j = 0 := hj.resolve_right hlow.not_ge
    rw [Nat.div_eq_of_lt hlow, Nat.mod_eq_of_lt hlow, if_pos rfl, Nat.cast_zero, add_zero]
    split
    · rename_i hzero
      subst hzero
      simpa using FpVal.denotes_zero neg
    · exact FpVal.denotes_finite neg ‹n ≠ 0› _
  obtain ⟨r, rfl⟩ := Nat.exists_eq_add_of_le hhigh
  have hnormal : j + (r / 2 ^ f.manBits + 1) ≠ 0 := Nat.succ_ne_zero _
  rw [Nat.add_div_left _ hpos, Nat.add_mod_left, if_neg hnormal]
  rw [pow_succ, Nat.mul_two, Nat.add_le_add_iff_left] at hn
  rcases hn.lt_or_eq with hlt | rfl
  · rw [Nat.div_eq_of_lt hlt, Nat.mod_eq_of_lt hlt]
    convert FpVal.denotes_finite neg (Nat.add_pos_left hpos r).ne' _ using 3
    push_cast
    ring
  · rw [Nat.div_self hpos, Nat.mod_self, Nat.add_zero]
    convert FpVal.denotes_finite neg hpos.ne' _ using 1
    rw [show fpMinExp f + ((j + Nat.succ 1 : Nat) - 1 : Int) = fpMinExp f + j + 1 by push_cast; ring,
      zpow_add_one₀ two_ne_zero]
    push_cast
    ring

section
variable {f : FpFormat} (hE : 2 ≤ f.expBits)
include hE

/-- The largest exponent field counts twice the bias and one (R281). -/
theorem natCast_two_pow_expBits : ((2 ^ f.expBits : Nat) : Int) = 2 * fpBias f + 2 := by
  obtain ⟨k, hk⟩ : ∃ k, f.expBits = k + 1 := ⟨f.expBits - 1, by omega⟩
  rw [fpBias, hk, Nat.add_sub_cancel, pow_succ]
  push_cast
  ring

theorem one_le_fpBias : 1 ≤ fpBias f := by
  have : (2 : Int) ^ 1 ≤ 2 ^ (f.expBits - 1) := pow_le_pow_right₀ (by norm_num) (by omega)
  rw [fpBias]
  omega

/-- The largest finite number, MAXF, with either sign (R293). -/
theorem unpack_maxFinite (neg : Bool) :
    ∃ sig exp, unpack f (maxFinite f neg) = .finite neg sig exp ∧ maxFinite f neg < 2 ^ f.width
      ∧ (sig : ℚ) * 2 ^ exp = ((2 : ℚ) ^ (f.manBits + 1) - 1) * 2 ^ (fpBias f - f.manBits) := by
  have hpos := Nat.two_pow_pos f.manBits
  have hfour : 4 ≤ 2 ^ f.expBits := by
    calc 4 = 2 ^ 2 := rfl
      _ ≤ 2 ^ f.expBits := Nat.pow_le_pow_right two_pos hE
  have hmax : maxFinite f neg = signPattern f neg + (2 ^ f.manBits * (2 ^ f.expBits - 2) + (2 ^ f.manBits - 1)) := by
    obtain ⟨k, hk⟩ := Nat.exists_eq_add_of_le hfour
    rw [maxFinite, infPattern, hk, show 4 + k - 1 = (4 + k - 2) + 1 by omega, Nat.succ_mul,
      Nat.mul_comm (2 ^ f.manBits)]
    omega
  have hm : 2 ^ f.manBits * (2 ^ f.expBits - 2) + (2 ^ f.manBits - 1) < 2 ^ (f.expBits + f.manBits) := by
    obtain ⟨k, hk⟩ := Nat.exists_eq_add_of_le hfour
    rw [pow_add, hk, show 4 + k - 2 = k + 2 by omega]
    nlinarith [Nat.sub_lt hpos one_pos]
  refine ⟨2 ^ f.manBits + (2 ^ f.manBits - 1), fpMinExp f + (((2 ^ f.expBits - 2 : Nat) : Int) - 1), ?_,
    hmax ▸ signPattern_add_lt f neg hm, ?_⟩
  · rw [hmax, unpack_signPattern_add f neg hm, Nat.mul_add_div hpos, Nat.div_eq_of_lt (Nat.sub_lt hpos one_pos),
      Nat.mul_add_mod, Nat.mod_eq_of_lt (Nat.sub_lt hpos one_pos), if_neg (by omega), if_neg (by omega)]
    rfl
  · have hexp : fpMinExp f + (((2 ^ f.expBits - 2 : Nat) : Int) - 1) = fpBias f - f.manBits := by
      have := natCast_two_pow_expBits hE
      rw [fpMinExp]
      omega
    rw [hexp]
    congr 1
    push_cast [show 1 ≤ 2 ^ f.manBits from hpos]
    ring

end

/-! ### Rounding with unbounded exponent -/

section
variable {mode : RoundingMode} {neg : Bool} {x unit : ℚ} {n : Nat} {inexact : Bool}

/-- Rounding does not go below a multiple of the unit that the number reaches, nor above one it stays within. -/
theorem RoundsTo.le_of_mul_le (h : RoundsTo mode neg x n unit inexact) (hunit : 0 < unit) {a : Nat}
    (ha : (a : ℚ) * unit ≤ x) : a ≤ n := by
  obtain ⟨-, -, hnear, -⟩ := h
  have hlt : (a : ℚ) * unit < (n + 1 : Nat) * unit := by
    rw [abs_lt] at hnear
    push_cast
    linarith [hnear.1]
  have : a < n + 1 := by exact_mod_cast lt_of_mul_lt_mul_right hlt hunit.le
  omega

theorem RoundsTo.le_of_le_mul (h : RoundsTo mode neg x n unit inexact) (hunit : 0 < unit) {b : Nat}
    (hb : x ≤ (b : ℚ) * unit) : n ≤ b := by
  obtain ⟨-, -, hnear, -⟩ := h
  have hlt : (n : ℚ) * unit < (b + 1 : Nat) * unit := by
    rw [abs_lt] at hnear
    push_cast
    linarith [hnear.2]
  have : n < b + 1 := by exact_mod_cast lt_of_mul_lt_mul_right hlt hunit.le
  omega

end

/-- The powers of two up to a number whose significand has `p + 1` bits, or is the first of `p + 2`. -/
theorem two_zpow_le_iff {n p : Nat} (e t : Int) (hlow : 2 ^ p ≤ n) (hhigh : n ≤ 2 ^ (p + 1)) :
    (2 : ℚ) ^ t ≤ n * 2 ^ e ↔ t ≤ e + if n = 2 ^ (p + 1) then ((p + 1 : Nat) : Int) else ((p + 1 : Nat) : Int) - 1 := by
  have hpow (k : Nat) : ((2 ^ k : Nat) : ℚ) * 2 ^ e = 2 ^ (e + k) := by
    rw [zpow_add₀ two_ne_zero, zpow_natCast, mul_comm]
    push_cast
    rfl
  split
  · rename_i htop
    rw [htop, hpow, zpow_le_zpow_iff_right₀ one_lt_two]
  · rename_i htop
    have hexp : (0 : ℚ) < 2 ^ e := by positivity
    constructor
    · intro h
      have hlt : (2 : ℚ) ^ t < 2 ^ (e + (p + 1 : Nat)) := by
        rw [← hpow]
        refine h.trans_lt (mul_lt_mul_of_pos_right ?_ hexp)
        exact_mod_cast lt_of_le_of_ne hhigh htop
      have := (zpow_lt_zpow_iff_right₀ one_lt_two).1 hlt
      omega
    · intro h
      calc (2 : ℚ) ^ t ≤ 2 ^ (e + p) := zpow_le_zpow_right₀ one_le_two (by push_cast at h; omega)
        _ = ((2 ^ p : Nat) : ℚ) * 2 ^ e := (hpow p).symm
        _ ≤ n * 2 ^ e := mul_le_mul_of_nonneg_right (by exact_mod_cast hlow) hexp.le

/-- The last place of a number at the format's precision with unbounded exponent (D30). -/
def unboundedExp (f : FpFormat) (sig : Nat) (exp : Int) : Int :=
  exp + (Nat.log2 sig : Int) + 1 - ((f.manBits + 1 : Nat) : Int)

/-- The significand of the number rounded there. -/
def unboundedSig (f : FpFormat) (mode : RoundingMode) (neg : Bool) (sig : Nat) (exp : Int) (sticky : Bool) : Nat :=
  (roundAt mode neg sig exp sticky (unboundedExp f sig exp)).1

/-- The exponent of its leading bit. -/
def unboundedTop (f : FpFormat) (mode : RoundingMode) (neg : Bool) (sig : Nat) (exp : Int) (sticky : Bool) : Int :=
  unboundedExp f sig exp + if unboundedSig f mode neg sig exp sticky = 2 ^ (f.manBits + 1)
    then ((f.manBits + 1 : Nat) : Int) else ((f.manBits + 1 : Nat) : Int) - 1

section
variable {f : FpFormat} {mode : RoundingMode} {neg : Bool} {sig : Nat} {exp : Int} {sticky : Bool} {x : ℚ}

/-- Above the largest finite number, `roundFinite` overflows (R288, R293). -/
theorem roundFinite_of_overflow (h : fpBias f < unboundedTop f mode neg sig exp sticky) :
    roundFinite f mode neg sig exp sticky
      = { bits := overflowPattern f mode neg, overflow := true, inexact := true } := if_pos h

/-- Below that, it rounds at the format's own last place, which for tiny numbers is that of the denormalized ones. -/
theorem roundFinite_of_number (h : ¬fpBias f < unboundedTop f mode neg sig exp sticky) :
    roundFinite f mode neg sig exp sticky
      = { bits := signPattern f neg + (max (unboundedExp f sig exp) (fpMinExp f) - fpMinExp f).toNat * 2 ^ f.manBits
            + (roundAt mode neg sig exp sticky (max (unboundedExp f sig exp) (fpMinExp f))).1
          tiny := decide (unboundedTop f mode neg sig exp sticky < 1 - fpBias f)
          inexact := (roundAt mode neg sig exp sticky (max (unboundedExp f sig exp) (fpMinExp f))).2 } := if_neg h

/-- The binade of a number at the format's precision. -/
theorem unbounded_binade (hsig : 0 < sig) (hx : StandsFor sig exp sticky x) :
    (2 : ℚ) ^ f.manBits * 2 ^ unboundedExp f sig exp ≤ x
      ∧ x < (2 : ℚ) ^ (f.manBits + 1) * 2 ^ unboundedExp f sig exp := by
  have hexp : (0 : ℚ) < 2 ^ exp := by positivity
  have hlow : (2 : ℚ) ^ Nat.log2 sig ≤ sig := by exact_mod_cast Nat.log2_self_le hsig.ne'
  have hhigh : (sig : ℚ) + 1 ≤ 2 ^ (Nat.log2 sig + 1) := by exact_mod_cast Nat.lt_log2_self
  have hplace (k : Nat) :
      (2 : ℚ) ^ (f.manBits + k) * 2 ^ unboundedExp f sig exp = 2 ^ (Nat.log2 sig + k) * 2 ^ exp := by
    rw [← zpow_natCast, ← zpow_natCast, ← zpow_add₀ two_ne_zero, ← zpow_add₀ two_ne_zero, unboundedExp]
    congr 1
    push_cast
    ring
  have hbetween : (sig : ℚ) * 2 ^ exp ≤ x ∧ x < (sig + 1) * 2 ^ exp := by
    unfold StandsFor at hx
    split at hx
    · exact ⟨hx.1.le, hx.2⟩
    · exact ⟨hx.ge, hx.trans_lt (mul_lt_mul_of_pos_right (lt_add_one _) hexp)⟩
  constructor
  · calc (2 : ℚ) ^ f.manBits * 2 ^ unboundedExp f sig exp = 2 ^ Nat.log2 sig * 2 ^ exp := hplace 0
      _ ≤ sig * 2 ^ exp := mul_le_mul_of_nonneg_right hlow hexp.le
      _ ≤ x := hbetween.1
  · calc x < (sig + 1) * 2 ^ exp := hbetween.2
      _ ≤ 2 ^ (Nat.log2 sig + 1) * 2 ^ exp := mul_le_mul_of_nonneg_right hhigh hexp.le
      _ = (2 : ℚ) ^ (f.manBits + 1) * 2 ^ unboundedExp f sig exp := (hplace 1).symm

/-- With two bits more than the format keeps, something below the last one is below every place rounded at. -/
theorem exp_lt_unboundedExp (hsig : 2 ^ (f.manBits + 2) ≤ sig) : exp < unboundedExp f sig exp := by
  have hpos : sig ≠ 0 := ((Nat.two_pow_pos _).trans_le hsig).ne'
  have := (Nat.le_log2 hpos).2 hsig
  rw [unboundedExp]
  omega

/-- The significand rounded with unbounded exponent has the format's precision, or is the next power of two. -/
theorem unboundedSig_bounds (hsig : 0 < sig) (hx : StandsFor sig exp sticky x)
    (hsticky : sticky = true → 2 ^ (f.manBits + 2) ≤ sig) :
    2 ^ f.manBits ≤ unboundedSig f mode neg sig exp sticky
      ∧ unboundedSig f mode neg sig exp sticky ≤ 2 ^ (f.manBits + 1) := by
  have hround := roundAt_roundsTo mode neg hx fun h => exp_lt_unboundedExp (hsticky h)
  obtain ⟨hlow, hhigh⟩ := unbounded_binade (f := f) hsig hx
  exact ⟨hround.le_of_mul_le (by positivity) (by exact_mod_cast hlow),
    hround.le_of_le_mul (by positivity) (by exact_mod_cast hhigh.le)⟩

end

/-! ### The result in the format -/

section
variable {f : FpFormat} {mode : RoundingMode} {neg : Bool} {sig : Nat} {exp : Int} {sticky : Bool} {x : ℚ}

/-- The last place that a result in the format has: that of its binade, or of the denormalized numbers (R286). -/
def lastPlace (f : FpFormat) (sig : Nat) (exp : Int) : Int := max (unboundedExp f sig exp) (fpMinExp f)

/-- A number below the binades of the format keeps its place among the denormalized ones, or becomes the first number
above them. -/
theorem denormalized_fits (hsig : 0 < sig) (hx : StandsFor sig exp sticky x)
    (hsticky : sticky = true → 2 ^ (f.manBits + 2) ≤ sig) (htiny : unboundedExp f sig exp < fpMinExp f) :
    (roundAt mode neg sig exp sticky (fpMinExp f)).1 ≤ 2 ^ f.manBits := by
  have hround := roundAt_roundsTo mode neg hx fun h => (exp_lt_unboundedExp (hsticky h)).trans htiny
  refine hround.le_of_le_mul (by positivity) ?_
  calc x ≤ (2 : ℚ) ^ (f.manBits + 1) * 2 ^ unboundedExp f sig exp := (unbounded_binade hsig hx).2.le
    _ = 2 ^ f.manBits * 2 ^ (unboundedExp f sig exp + 1) := by rw [zpow_add_one₀ two_ne_zero, pow_succ]; ring
    _ ≤ 2 ^ f.manBits * 2 ^ fpMinExp f := by
      gcongr
      · exact one_le_two
      · omega
    _ = ((2 ^ f.manBits : Nat) : ℚ) * 2 ^ fpMinExp f := by push_cast; rfl

/-- A number that does not overflow, at the last place of its binade, has an exponent field below the infinities'. -/
theorem normal_fits (hE : 2 ≤ f.expBits) (hhigh : unboundedSig f mode neg sig exp sticky ≤ 2 ^ (f.manBits + 1))
    (htop : ¬fpBias f < unboundedTop f mode neg sig exp sticky) :
    (unboundedExp f sig exp - fpMinExp f).toNat * 2 ^ f.manBits + unboundedSig f mode neg sig exp sticky
      < (2 ^ f.expBits - 1) * 2 ^ f.manBits := by
  have hpos := Nat.two_pow_pos f.manBits
  have hdouble : 2 ^ (f.manBits + 1) = 2 * 2 ^ f.manBits := by rw [pow_succ, Nat.mul_comm]
  have hfields := natCast_two_pow_expBits hE
  have hbias := one_le_fpBias hE
  have hmin : fpMinExp f = 1 - fpBias f - f.manBits := rfl
  rw [unboundedTop] at htop
  split at htop
  · rename_i hpower
    calc (unboundedExp f sig exp - fpMinExp f).toNat * 2 ^ f.manBits + unboundedSig f mode neg sig exp sticky
        = ((unboundedExp f sig exp - fpMinExp f).toNat + 2) * 2 ^ f.manBits := by rw [hpower, hdouble]; ring
      _ < (2 ^ f.expBits - 1) * 2 ^ f.manBits := Nat.mul_lt_mul_of_pos_right (by omega) hpos
  · calc (unboundedExp f sig exp - fpMinExp f).toNat * 2 ^ f.manBits + unboundedSig f mode neg sig exp sticky
        < ((unboundedExp f sig exp - fpMinExp f).toNat + 2) * 2 ^ f.manBits := by rw [Nat.add_mul]; omega
      _ ≤ (2 ^ f.expBits - 1) * 2 ^ f.manBits := Nat.mul_le_mul_right _ (by omega)

/-- A number that does not overflow has, at its last place, no more bits than the format keeps, but for the power of
two above them; and its pattern is below the infinities'. -/
theorem number_fits (hE : 2 ≤ f.expBits) (hsig : 0 < sig) (hx : StandsFor sig exp sticky x)
    (hsticky : sticky = true → 2 ^ (f.manBits + 2) ≤ sig)
    (htop : ¬fpBias f < unboundedTop f mode neg sig exp sticky) {j n : Nat}
    (hj : j = (lastPlace f sig exp - fpMinExp f).toNat)
    (hn : n = (roundAt mode neg sig exp sticky (lastPlace f sig exp)).1) :
    n ≤ 2 ^ (f.manBits + 1) ∧ (j = 0 ∨ 2 ^ f.manBits ≤ n)
      ∧ j * 2 ^ f.manBits + n < (2 ^ f.expBits - 1) * 2 ^ f.manBits := by
  rcases lt_or_ge (unboundedExp f sig exp) (fpMinExp f) with htiny | hnormal
  · have hplace : lastPlace f sig exp = fpMinExp f := max_eq_right htiny.le
    rw [hplace, sub_self] at hj
    have hle := denormalized_fits (mode := mode) (neg := neg) hsig hx hsticky htiny
    rw [hplace] at hn
    rw [← hn] at hle
    have hfields := natCast_two_pow_expBits hE
    have hbias := one_le_fpBias hE
    refine ⟨hle.trans (Nat.pow_le_pow_right two_pos (Nat.le_succ _)), .inl hj, ?_⟩
    calc j * 2 ^ f.manBits + n ≤ 1 * 2 ^ f.manBits := by rw [hj, Int.toNat_zero]; omega
      _ < (2 ^ f.expBits - 1) * 2 ^ f.manBits := Nat.mul_lt_mul_of_pos_right (by omega) (Nat.two_pow_pos _)
  · have hplace : lastPlace f sig exp = unboundedExp f sig exp := max_eq_left hnormal
    obtain ⟨hlow, hhigh⟩ := unboundedSig_bounds (mode := mode) (neg := neg) hsig hx hsticky
    have hfits := normal_fits hE hhigh htop
    rw [hplace] at hj hn
    rw [hj, hn]
    exact ⟨hhigh, .inr hlow, hfits⟩

theorem overflowPattern_eq (f : FpFormat) (mode : RoundingMode) (neg : Bool) :
    overflowPattern f mode neg = if overflowsToInfinity mode neg then infPattern f neg else maxFinite f neg := by
  cases mode <;> cases neg <;> rfl

/-- The result of an overflow is the infinity or the largest finite number with the sign, as the mode says (R293). -/
theorem unpack_overflowPattern (hE : 2 ≤ f.expBits) (mode : RoundingMode) (neg : Bool) :
    overflowPattern f mode neg < 2 ^ f.width ∧ (unpack f (overflowPattern f mode neg)).negative = neg
      ∧ (overflowsToInfinity mode neg = true → unpack f (overflowPattern f mode neg) = .infinite neg)
      ∧ (overflowsToInfinity mode neg = false → |(unpack f (overflowPattern f mode neg)).toRat|
          = ((2 : ℚ) ^ (f.manBits + 1) - 1) * 2 ^ (fpBias f - f.manBits)) := by
  rw [overflowPattern_eq]
  cases overflowsToInfinity mode neg with
  | true =>
    obtain ⟨hinf, hlt⟩ := unpack_infPattern f neg
    exact ⟨hlt, by rw [if_pos rfl, hinf]; rfl, fun _ => hinf, nofun⟩
  | false =>
    obtain ⟨s, e, hmax, hlt, hvalue⟩ := unpack_maxFinite hE neg
    exact ⟨hlt, by rw [if_neg nofun, hmax]; rfl, nofun, fun _ => by rw [if_neg nofun, hmax, abs_toRat_finite, hvalue]⟩

end

/-- Settles O56: with `e` the last place of the number's binade, the number rounded there with unbounded exponent tells
overflow and tininess, and the result is the number rounded at the format's own last place. -/
theorem roundingTakesTheNamedNeighbour : Obligations.RoundingTakesTheNamedNeighbour := by
  refine ⟨State.roundingMode_of_ucr, fun mode neg sig exp e sticky x => roundAt_roundsTo mode neg, ?_⟩
  intro f mode neg sig exp sticky x hE _ hsig hx hsticky
  have hbelow (h : sticky = true) : exp < unboundedExp f sig exp := exp_lt_unboundedExp (hsticky h)
  obtain ⟨hlow, hhigh⟩ := unbounded_binade (f := f) hsig hx
  obtain ⟨hsigLow, hsigHigh⟩ := unboundedSig_bounds (mode := mode) (neg := neg) hsig hx hsticky
  have hpow (t : Int) : (2 : ℚ) ^ t ≤ unboundedSig f mode neg sig exp sticky * 2 ^ unboundedExp f sig exp
      ↔ t ≤ unboundedTop f mode neg sig exp sticky := two_zpow_le_iff _ t hsigLow hsigHigh
  refine ⟨unboundedExp f sig exp, unboundedSig f mode neg sig exp sticky, _, hlow, hhigh,
    roundAt_roundsTo mode neg hx hbelow, ?_⟩
  have hless (t : Int) : unboundedSig f mode neg sig exp sticky * (2 : ℚ) ^ unboundedExp f sig exp < 2 ^ t
      ↔ unboundedTop f mode neg sig exp sticky < t := by rw [← not_le, hpow, not_le]
  rw [hpow, hless]
  by_cases htop : fpBias f < unboundedTop f mode neg sig exp sticky
  · obtain ⟨hlt, hneg, hinf, hmax⟩ := unpack_overflowPattern hE mode neg
    rw [roundTo, roundFinite_of_overflow htop]
    exact ⟨hlt, hneg, iff_of_true rfl htop, fun _ => ⟨rfl, rfl, hinf, hmax⟩, nofun⟩
  · obtain ⟨hn, hj, hfinite⟩ := number_fits hE hsig hx hsticky htop rfl rfl
    obtain ⟨⟨hnumber, hneg, hvalue⟩, hlt⟩ := unpack_number f neg hn hj hfinite
    have hplace : fpMinExp f + ((lastPlace f sig exp - fpMinExp f).toNat : Int) = lastPlace f sig exp := by
      have : fpMinExp f ≤ lastPlace f sig exp := le_max_right ..
      omega
    rw [hplace] at hvalue
    rw [roundTo, roundFinite_of_number htop]
    exact ⟨hlt, hneg, iff_of_false nofun htop, nofun, fun _ => ⟨decide_eq_true_iff, hnumber, _, hvalue,
      roundAt_roundsTo mode neg hx fun h => (hbelow h).trans_le (le_max_left ..)⟩⟩

end Sys2Proof.Machine
end

section
/-! PROOFS. A wide access byte by byte: what a load is made of, and what a store puts where (R84, R85). -/
namespace Sys2Proof.Machine

/-! ### The byte order -/

theorem byteRank_lt (c : Config) {n i : Nat} (h : i < n) : byteRank c n i < n := by
  unfold byteRank
  split <;> omega

/-- The byte order turns offsets into ranks and ranks into offsets. -/
theorem byteRank_byteRank (c : Config) {n i : Nat} (h : i < n) : byteRank c n (byteRank c n i) = i := by
  unfold byteRank
  split <;> omega

/-! ### Loads -/

theorem Memory.readBytes_eq_sum (c : Config) (m : Memory) (addr n k : Nat) :
    Memory.readBytes c m addr n k
      = ∑ i ∈ Finset.range k, (Memory.byteAt m ((addr + i) % addressSpace c)).toNat * 2 ^ (8 * byteRank c n i) := by
  induction k with
  | zero => rfl
  | succ k ih => rw [Finset.sum_range_succ, Memory.readBytes, ih]

/-- The byte of memory that is byte `i` of a load of `n` bytes, 0 the least significant (R84). -/
def State.loadedByte (s : State) (addr n : Nat) (i : Fin n) : Byte :=
  Memory.byteAt s.mem ((addr + byteRank s.cfg n i) % addressSpace s.cfg)

/-- A load is the number whose digits to the base 2^8 are the bytes in the byte order. -/
theorem State.memRead_eq_digits (s : State) (addr n : Nat) :
    s.memRead addr n = (finFunctionFinEquiv fun i => (s.loadedByte addr n i).toFin : Fin ((2 ^ 8) ^ n)) := by
  rw [finFunctionFinEquiv_apply, State.memRead, Memory.readBytes_eq_sum]
  calc ∑ i ∈ Finset.range n,
        (Memory.byteAt s.mem ((addr + i) % addressSpace s.cfg)).toNat * 2 ^ (8 * byteRank s.cfg n i)
    _ = ∑ j ∈ Finset.range n,
        (Memory.byteAt s.mem ((addr + byteRank s.cfg n j) % addressSpace s.cfg)).toNat * (2 ^ 8) ^ j := by
      have hrank : ∀ i ∈ Finset.range n, byteRank s.cfg n i ∈ Finset.range n := by
        simpa using fun i => byteRank_lt s.cfg
      have hback : ∀ i ∈ Finset.range n, byteRank s.cfg n (byteRank s.cfg n i) = i := by
        simpa using fun i => byteRank_byteRank s.cfg
      refine Finset.sum_nbij' (byteRank s.cfg n) (byteRank s.cfg n) hrank hrank hback hback fun i hi => ?_
      rw [hback i hi, pow_mul]
    _ = ∑ j : Fin n, ((s.loadedByte addr n j).toFin : Nat) * (2 ^ 8) ^ (j : Nat) := Finset.sum_range _

theorem State.memRead_lt (s : State) (addr n : Nat) : s.memRead addr n < 2 ^ (8 * n) := by
  rw [s.memRead_eq_digits, pow_mul]
  exact Fin.isLt _

/-- Byte `i` of a load. -/
theorem State.memRead_byte (s : State) (addr : Nat) {n i : Nat} (h : i < n) :
    s.memRead addr n / 2 ^ (8 * i) % 256 = (s.loadedByte addr n ⟨i, h⟩).toNat := by
  have hdigit := finFunctionFinEquiv_symm_apply_val
    (finFunctionFinEquiv fun i => (s.loadedByte addr n i).toFin : Fin ((2 ^ 8) ^ n)) ⟨i, h⟩
  rw [Equiv.symm_apply_apply] at hdigit
  rw [s.memRead_eq_digits, pow_mul]
  exact hdigit.symm

/-- Settles O16: a load is a number to the base 2^8, whose digits are the bytes. -/
theorem loadedBytesInOrder : Obligations.LoadedBytesInOrder :=
  fun s addr _ => ⟨s.memRead_lt addr _, fun _ hi => s.memRead_byte addr hi⟩

/-! ### Stores -/

/-- No two bytes of an access that fits in the address space share an address. -/
theorem offset_ne (c : Config) (addr : Nat) {i j : Nat} (hij : i < j) (hj : j < addressSpace c) :
    (addr + i) % addressSpace c ≠ (addr + j) % addressSpace c := by
  intro h
  have hsame : i % addressSpace c = j % addressSpace c := Nat.ModEq.add_left_cancel' addr h
  rw [Nat.mod_eq_of_lt (hij.trans hj), Nat.mod_eq_of_lt hj] at hsame
  exact hij.ne hsame

/-- Each byte a wide write has written holds its byte of the value (R85). -/
theorem Memory.byteAt_writeBytes (c : Config) {m : Memory} (hm : Memory.wf m = true) (addr n v : Nat) {k i : Nat}
    (hk : k ≤ addressSpace c) (hi : i < k) :
    Memory.byteAt (Memory.writeBytes c m addr n v k) ((addr + i) % addressSpace c)
      = BitVec.ofNat 8 (v / 2 ^ (8 * byteRank c n i)) := by
  induction k with
  | zero => omega
  | succ k ih =>
    rw [Memory.writeBytes]
    rcases Nat.lt_succ_iff_lt_or_eq.1 hi with hlt | rfl
    · rw [Memory.byteAt_setByte_other _ _ _ _ (offset_ne c addr hlt (by omega))]
      exact ih (by omega) hlt
    · exact Memory.byteAt_setByte_same _ _ _ (Memory.writeBytes_wf _ _ _ _ _ _ hm)

/-- The load of the bytes a store has written finds its value (R85). -/
theorem State.memRead_memWrite {s : State} (addr : Nat) {n v : Nat} (hm : Memory.wf s.mem = true)
    (hn : n ≤ addressSpace s.cfg) (hv : v < 2 ^ (8 * n)) : (s.memWrite addr n v).memRead addr n = v := by
  rw [pow_mul] at hv
  have hdigits : (fun i => ((s.memWrite addr n v).loadedByte addr n i).toFin)
      = finFunctionFinEquiv.symm (⟨v, hv⟩ : Fin ((2 ^ 8) ^ n)) := by
    funext i
    have hbyte : (s.memWrite addr n v).loadedByte addr n i
        = BitVec.ofNat 8 (v / 2 ^ (8 * byteRank s.cfg n (byteRank s.cfg n i))) :=
      Memory.byteAt_writeBytes s.cfg hm addr n v hn (byteRank_lt s.cfg i.isLt)
    apply Fin.ext
    rw [hbyte, byteRank_byteRank s.cfg i.isLt, finFunctionFinEquiv_symm_apply_val, pow_mul]
    rfl
  rw [State.memRead_eq_digits, hdigits, Equiv.apply_symm_apply]

/-- Settles O15: the bytes of a store within the address space have different addresses, so each is still there at its
end. -/
theorem storedBytesReadBack : Obligations.StoredBytesReadBack := by
  rintro s addr n v ⟨hm, -⟩ hn hv
  refine ⟨State.memRead_memWrite addr hm hn hv, fun i hi => Memory.byteAt_writeBytes s.cfg hm addr n v hn hi,
    fun a ha => Memory.byteAt_writeBytes_other _ _ _ _ _ _ _ fun i hi haddr => ?_⟩
  rw [(inBytes_iff s.cfg addr n a).2 ⟨i, hi, haddr⟩] at ha
  cases ha

end Sys2Proof.Machine
end

section
/-! PROOFS. Every step keeps memory canonical and within the address space (R83). -/
namespace Sys2Proof.Machine

theorem FlowKept.memoryOk {s t : State} (h : FlowKept s t) (hs : s.memoryOk) : t.memoryOk := by
  simpa only [State.memoryOk, h.cfg, h.mem] using hs

/-- What an instruction writes to memory is a wide write, or nothing. -/
theorem Writes.memoryOk {s u : State} (hu : Writes s u) (h : s.memoryOk) : u.memoryOk := by
  refine ⟨hu.memory_wf h.1, ?_⟩
  cases hu with
  | files m r hu hm =>
    have hmem : u.mem = m := by rw [hu.frame]
    rw [hmem, hu.cfg]
    rcases hm with rfl | ⟨addr, n, v, rfl⟩
    · exact h.2
    · exact Memory.writeBytes_below _ _ _ _ _ _ h.2
  | special m d x => rw [specialWritten_frame]; exact h.2

/-- Another agent writes within the address space, and no other event writes memory. -/
theorem State.memoryOk_receive {s : State} (e : Event) (h : s.memoryOk) : (s.receive e).memoryOk := by
  refine ⟨s.receive_wf e h.1, ?_⟩
  cases e with
  | agentWrite a v => exact Memory.setByte_below _ _ _ _ h.2 (Nat.mod_lt _ (addressSpace_pos s.cfg))
  | dspException k => rw [State.receive]; split <;> exact h.2
  | _ => exact h.2

/-- Settles O8: the instruction's writes, program flow, the events and the boundary each keep it. -/
theorem stepKeepsMemoryCanonical : Obligations.StepKeepsMemoryCanonical :=
  step_rule (M := State.memoryOk) (fun _ _ hs hu => hu.rule FlowKept.memoryOk Writes.memoryOk hs)
    (fun _ e => State.memoryOk_receive e) (fun _ _ h => h) fun s => (FlowKept.boundary s).memoryOk

end Sys2Proof.Machine
end

section
/-! PROOFS. A step of a core that runs: the word at IC, decoded, is the instruction that acts (R88, R129), and the word
`withFetchWord` places is the one at IC (log 5). -/
namespace Sys2Proof.Machine

/-- A fetch that is not refused runs what its word decodes to (R88, R129). -/
theorem fetchAndRun_of_decode {s : State} {i : Instr} (hbus : s.busError .fetch s.fetchAddress 4 = false)
    (hdecode : decode s.fetchWord = .ok i) : fetchAndRun s = exec i { s with ir := s.fetchWord } := by
  rw [fetchAndRun, hbus, hdecode]
  rfl

/-- The step of a core that runs is what it fetches, to the end of the step. -/
theorem step_of_running {s : State} (herror : s.errorState = false) (hwaiting : s.waiting = false) :
    step s = thenSettle (fetchAndRun s.boundary) := by
  simp [step, cycle, State.ready, herror, hwaiting]

/-- Settles O4: neither the pause nor the undefined state stands before the fetch. -/
theorem stepRunsDecodedInstruction : Obligations.StepRunsDecodedInstruction := by
  intro s i t herror hwaiting hbus hdecode hexec
  have hrun : fetchAndRun s.boundary = .next t := (fetchAndRun_of_decode hbus hdecode).trans hexec
  rw [step_of_running herror hwaiting, hrun]
  rfl

/-! ### The placed word -/

/-- `s` with other memory contents and other refused regions. -/
def State.withPlatform (s : State) (m : Memory) (regions : List Region) : State :=
  { s with mem := m, refused := regions }

/-- A boundary looks at neither memory nor what the platform refuses (R432). -/
theorem State.boundary_withPlatform (s : State) (m : Memory) (regions : List Region) :
    (s.withPlatform m regions).boundary = s.boundary.withPlatform m regions := by
  unfold State.boundary
  repeat' rw [apply_ite (State.withPlatform · m regions)]
  rfl

@[simp] theorem State.boundary_memRead (s : State) (addr n : Nat) : s.boundary.memRead addr n = s.memRead addr n := by
  simp [State.memRead]

@[simp] theorem State.boundary_busError (s : State) (kind : AccessKind) (addr n : Nat) :
    s.boundary.busError kind addr n = s.busError kind addr n := by
  simp [State.busError]

/-- `s` with every region taken away that refuses an access. -/
def State.allow (s : State) (kind : AccessKind) (addr n : Nat) : State :=
  { s with refused := s.refused.filter fun r => !({ s with refused := [r] }.busError kind addr n) }

/-- The platform refuses an access where one of its regions alone would. -/
theorem State.busError_eq_any (s : State) (kind : AccessKind) (addr n : Nat) :
    s.busError kind addr n = s.refused.any fun r => { s with refused := [r] }.busError kind addr n := by
  simp [State.busError]

theorem State.busError_allow (s : State) (kind : AccessKind) (addr n : Nat) :
    (s.allow kind addr n).busError kind addr n = false := by
  rw [State.busError_eq_any]
  simp [State.allow]

theorem State.fetchAddress_boundary_withFetchWord (s : State) (nbits w : Nat) :
    (s.withFetchWord nbits w).boundary.fetchAddress = s.awake.boundary.fetchAddress := by
  have hplatform : s.withFetchWord nbits w
      = s.awake.withPlatform (s.withFetchWord nbits w).mem (s.withFetchWord nbits w).refused := rfl
  rw [hplatform, State.boundary_withPlatform]
  rfl

/-- The fetch of the placed word is not refused. -/
theorem State.busError_withFetchWord (s : State) (nbits w : Nat) :
    (s.withFetchWord nbits w).busError .fetch s.awake.boundary.fetchAddress 4 = false :=
  s.awake.busError_allow .fetch s.awake.boundary.fetchAddress 4

theorem ofNat_mod_two_pow (width v : Nat) : BitVec.ofNat width (v % 2 ^ width) = BitVec.ofNat width v :=
  BitVec.eq_of_toNat_eq (by simp)

/-- The word fetched is the one placed. -/
theorem State.fetchWord_boundary_withFetchWord {s : State} (w : Nat) (hm : Memory.wf s.mem = true)
    (hwidth : 2 ≤ s.cfg.physAddrWidth) : (s.withFetchWord 32 w).boundary.fetchWord = BitVec.ofNat 32 w := by
  have hfits : 4 ≤ addressSpace s.cfg := Nat.pow_le_pow_right (n := 2) (by omega) hwidth
  have hload : (s.withFetchWord 32 w).memRead s.awake.boundary.fetchAddress 4 = w % 2 ^ 32 :=
    State.memRead_memWrite (s := s.awake.allow .fetch s.awake.boundary.fetchAddress 4) _ hm hfits
      (Nat.mod_lt _ (Nat.two_pow_pos 32))
  rw [State.fetchWord, State.fetchAddress_boundary_withFetchWord, State.boundary_memRead, hload, ofNat_mod_two_pow]

theorem decode_of_decodeTableWord {w : Nat} {i : Instr} (h : decodeTableWord 32 w = some i) :
    decode (BitVec.ofNat 32 w) = .ok i := by
  rw [decodeTableWord, ofNat_mod_two_pow] at h
  split at h
  · rename_i hdecode
    rw [hdecode, Option.some.inj h]
  · cases h

/-- Settles O6: the boundary before the fetch sees nothing of the placing, so the word stands at the address of that
fetch. -/
theorem placedWordIsRunNext : Obligations.PlacedWordIsRunNext := by
  rintro s w i ⟨hm, -⟩ hwidth htable
  have hword := State.fetchWord_boundary_withFetchWord w hm hwidth
  have hbus : (s.withFetchWord 32 w).boundary.busError .fetch (s.withFetchWord 32 w).boundary.fetchAddress 4
      = false := by
    rw [State.fetchAddress_boundary_withFetchWord, State.boundary_busError, State.busError_withFetchWord]
  have hdecode : decode (s.withFetchWord 32 w).boundary.fetchWord = .ok i :=
    hword ▸ decode_of_decodeTableWord htable
  refine ⟨{ (s.withFetchWord 32 w).boundary with ir := (s.withFetchWord 32 w).boundary.fetchWord }, hword,
    State.boundary_banks _, State.boundary_cfg _, ?_⟩
  rw [step_of_running rfl rfl, fetchAndRun_of_decode hbus hdecode]

end Sys2Proof.Machine
end

section
/-! PROOFS. The word of an instruction, field by field, and the decoder on it (R110 to R129). -/
namespace Sys2Proof

/-! ### Fields of a word -/

theorem field_lt (w : Word) (lo len : Nat) : field w lo len < 2 ^ len :=
  Nat.mod_lt _ (Nat.two_pow_pos len)

theorem flag_toNat (w : Word) (k : Nat) : (flag w k).toNat = field w k 1 := by
  have h := field_lt w k 1
  obtain h0 | h1 : field w k 1 = 0 ∨ field w k 1 = 1 := by omega
  · simp [flag, h0]
  · simp [flag, h1]

theorem MMode.ofCode_code (m : MMode) : MMode.ofCode m.code = m := by cases m <;> rfl

theorem MMode.code_ofCode {n : Nat} (h : n < 8) : (MMode.ofCode n).code = n := by
  interval_cases n <;> rfl

theorem code_modeField (w : Word) : (modeField w).code = field w 27 3 :=
  MMode.code_ofCode (field_lt w 27 3)

/-- A word lies in its OPCODE byte, its DESTINATION and its low 18 bits. -/
theorem fields_opWord {op d low : Nat} (hop : op < 256) (hd : d < 64) (hlow : low < 2 ^ 18) :
    field (opWord op d low) 24 8 = op ∧ destField (opWord op d low) = d ∧ field (opWord op d low) 0 18 = low := by
  simp only [field, destField, opWord, BitVec.toNat_ofNat]
  omega

/-! ### The OPCODE byte -/

/-- The OPCODE byte of the bits 31, 30, MMODE, 26, 25 and 24 (R112, R118, R126). -/
def opcodeByte (b31 b30 : Bool) (m : MMode) (b26 b25 b24 : Bool) : Nat :=
  128 * b31.toNat + 64 * b30.toNat + 8 * m.code + 4 * b26.toNat + 2 * b25.toNat + b24.toNat

/-- A word's OPCODE, bit by bit. -/
structure HasOpcode (w : Word) (b31 b30 : Bool) (m : MMode) (b26 b25 b24 : Bool) : Prop where
  bit31 : flag w 31 = b31
  bit30 : flag w 30 = b30
  mode : modeField w = m
  bit26 : flag w 26 = b26
  bit25 : flag w 25 = b25
  bit24 : flag w 24 = b24

theorem opcode_eq (w : Word) : field w 24 8 = 128 * (flag w 31).toNat + 64 * (flag w 30).toNat + 8 * field w 27 3
    + 4 * (flag w 26).toNat + 2 * (flag w 25).toNat + (flag w 24).toNat := by
  simp only [flag_toNat, field]
  omega

section
variable {w : Word} {b31 b30 : Bool} {m : MMode} {b26 b25 b24 : Bool}

theorem opcodeByte_lt : opcodeByte b31 b30 m b26 b25 b24 < 256 := by
  have hm := m.code_lt
  have h31 := b31.toNat_lt
  have h30 := b30.toNat_lt
  have h26 := b26.toNat_lt
  have h25 := b25.toNat_lt
  have h24 := b24.toNat_lt
  unfold opcodeByte
  omega

theorem flag_of_field {k : Nat} {b : Bool} (h : field w k 1 = b.toNat) : flag w k = b := by
  cases b <;> simp [flag, h]

/-- The OPCODE byte determines its bits. -/
theorem hasOpcode_of_field (h : field w 24 8 = opcodeByte b31 b30 m b26 b25 b24) :
    HasOpcode w b31 b30 m b26 b25 b24 := by
  have hm := m.code_lt
  have h31 := b31.toNat_lt
  have h30 := b30.toNat_lt
  have h26 := b26.toNat_lt
  have h25 := b25.toNat_lt
  have h24 := b24.toNat_lt
  have bits : field w 31 1 = b31.toNat ∧ field w 30 1 = b30.toNat ∧ field w 27 3 = m.code
      ∧ field w 26 1 = b26.toNat ∧ field w 25 1 = b25.toNat ∧ field w 24 1 = b24.toNat := by
    simp only [field, opcodeByte] at *
    omega
  obtain ⟨e31, e30, emode, e26, e25, e24⟩ := bits
  exact ⟨flag_of_field e31, flag_of_field e30, by rw [modeField, emode, m.ofCode_code], flag_of_field e26,
    flag_of_field e25, flag_of_field e24⟩

theorem HasOpcode.modeCode (o : HasOpcode w b31 b30 m b26 b25 b24) : field w 27 3 = m.code := by
  rw [← code_modeField, o.mode]
end

/-! ### The decoder each OPCODE selects -/

section
variable {w : Word} {m : MMode}

theorem HasOpcode.decode_load (o : HasOpcode w true true m false false false) : decode w = decodeLoad w := by
  simp [decode, decodeTransfer, decodeMemory, o.bit31, o.bit30, o.bit26, o.bit25, o.bit24]

theorem HasOpcode.decode_store (o : HasOpcode w true false m false false false) : decode w = decodeStore w := by
  simp [decode, decodeTransfer, decodeMemory, o.bit31, o.bit30, o.bit26, o.bit25, o.bit24]

theorem HasOpcode.decode_loadLocked (o : HasOpcode w true true m false true false) :
    decode w = decodeLoadLocked w := by
  simp [decode, decodeTransfer, decodeMemory, o.bit31, o.bit30, o.bit26, o.bit25, o.bit24]

theorem HasOpcode.decode_storeCond (o : HasOpcode w true false m false true false) :
    decode w = decodeStoreCond w := by
  simp [decode, decodeTransfer, decodeMemory, o.bit31, o.bit30, o.bit26, o.bit25, o.bit24]

/-- The displacement form of the kind that L and U select (R114). -/
theorem HasOpcode.decode_displacement {l u : Bool} (o : HasOpcode w true l m true u false) :
    decode w = .ok (match l, u with
      | true, false => .loadDisp m (destField w) (baseField w) (offset12 w)
      | false, false => .storeDisp m (destField w) (baseField w) (offset12 w)
      | true, true => .loadLockedDisp m (destField w) (baseField w) (offset12 w)
      | false, true => .storeCondDisp m (destField w) (baseField w) (offset12 w)) := by
  simp only [decode, decodeTransfer, decodeMemory, o.bit31, o.bit30, o.mode, o.bit26, o.bit25, o.bit24]
  cases l <;> cases u <;> rfl

theorem HasOpcode.decode_interRegister (o : HasOpcode w true true m false false true) :
    decode w = decodeInterRegister w := by
  simp [decode, decodeTransfer, o.bit31, o.bit30, o.bit26, o.bit25, o.bit24]

theorem HasOpcode.decode_loadImm {u : Bool} (o : HasOpcode w true true m true u true) :
    decode w = .ok (.loadImm m u (destField w) (immediate18 w)) := by
  simp [decode, decodeTransfer, o.bit31, o.bit30, o.mode, o.bit26, o.bit25, o.bit24]

theorem HasOpcode.decode_integerReg {u : Bool} (o : HasOpcode w false false m false u false) :
    decode w = decodeIntegerReg w := by
  simp [decode, o.bit31, o.bit30, o.bit26, o.bit24]

theorem HasOpcode.decode_integerImm {u : Bool} (o : HasOpcode w false false m true u false) :
    decode w = decodeIntegerImm w := by
  simp [decode, o.bit31, o.bit30, o.bit26, o.bit24]

theorem HasOpcode.decode_float {b26 u : Bool} (o : HasOpcode w false false m b26 u true) :
    decode w = decodeFloat w := by
  simp [decode, o.bit31, o.bit30, o.bit24]

theorem HasOpcode.decode_controlReg {a p : Bool} (o : HasOpcode w false true m false a p) :
    decode w = decodeControlReg w := by
  simp [decode, o.bit31, o.bit30, o.bit26]

theorem HasOpcode.decode_return {a p : Bool} (o : HasOpcode w false true m false a p) (haux : field w 14 4 = 13) :
    decode w = decodeReturn w := by
  simp [o.decode_controlReg, decodeControlReg, haux]

theorem HasOpcode.decode_controlOff {a p : Bool} (o : HasOpcode w false true m true a p) :
    decode w = decodeControlOff w := by
  simp [decode, o.bit31, o.bit30, o.bit26]
end

/-! ### The operand fields of the low 18 bits -/

section
variable {w : Word} {aux b x : Nat}

theorem fields_of_index (h : field w 0 18 = 0x4000 * aux + x) (hx : x < 64) :
    field w 14 4 = aux ∧ indexField w = x := by
  simp only [field, indexField] at *
  omega

theorem fields_of_base (h : field w 0 18 = 0x4000 * aux + 64 * b) (hb : b < 64) :
    field w 14 4 = aux ∧ baseField w = b := by
  simp only [field, baseField] at *
  omega

theorem fields_of_base_index (h : field w 0 18 = 0x4000 * aux + 64 * b + x) (hb : b < 64) (hx : x < 64) :
    field w 14 4 = aux ∧ baseField w = b ∧ indexField w = x := by
  simp only [field, baseField, indexField] at *
  omega

theorem fields_of_immediate14 {imm : BitVec 14} (h : field w 0 18 = 0x4000 * aux + imm.toNat) :
    field w 14 4 = aux ∧ immediate14 w = imm := by
  have himm := imm.isLt
  have hfield : field w 0 14 = imm.toNat ∧ field w 14 4 = aux := by
    simp only [field] at *
    omega
  exact ⟨hfield.2, by rw [immediate14, hfield.1, BitVec.ofNat_toNat, BitVec.setWidth_eq]⟩

theorem auxcode_of_low (h : field w 0 18 = 0x4000 * aux) : field w 14 4 = aux := by
  simp only [field] at *
  omega

theorem immediate18_of_low {imm : BitVec 18} (h : field w 0 18 = imm.toNat) : immediate18 w = imm := by
  rw [immediate18, h, BitVec.ofNat_toNat, BitVec.setWidth_eq]

theorem fields_of_split_immediate8 {high low : Nat}
    (h : field w 0 18 = 0x4000 * aux + 4096 * high + 64 * b + low) (hhigh : high < 4) (hb : b < 64)
    (hlow : low < 64) : field w 14 4 = aux ∧ baseField w = b ∧ field w 12 2 = high ∧ field w 0 6 = low := by
  simp only [field, baseField] at *
  omega

theorem fields_of_immediate8 {imm : BitVec 8}
    (h : field w 0 18 = 0x4000 * aux + 4096 * (imm.toNat / 64) + 64 * b + imm.toNat % 64) (hb : b < 64) :
    field w 14 4 = aux ∧ baseField w = b ∧ immediate8 w = imm := by
  obtain ⟨haux, hbase, hhigh, hlow⟩ :=
    fields_of_split_immediate8 h (Nat.div_lt_of_lt_mul imm.isLt) hb (Nat.mod_lt _ (by decide))
  exact ⟨haux, hbase, by rw [immediate8, hhigh, hlow, Nat.div_add_mod', BitVec.ofNat_toNat, BitVec.setWidth_eq]⟩

theorem fields_of_offset12 {off : BitVec 12}
    (h : field w 0 18 = 4096 * (off.toNat / 64) + 64 * b + off.toNat % 64) (hb : b < 64) :
    baseField w = b ∧ offset12 w = off := by
  have hfield : baseField w = b ∧ field w 12 6 * 64 + field w 0 6 = off.toNat := by
    simp only [field, baseField] at *
    omega
  obtain ⟨hbase, hvalue⟩ := hfield
  exact ⟨hbase, by rw [offset12, hvalue, BitVec.ofNat_toNat, BitVec.setWidth_eq]⟩

theorem fields_of_offset20 {off : BitVec 20} (hd : destField w = off.toNat / 16384)
    (h : field w 0 18 = 0x4000 * aux + off.toNat % 16384) : field w 14 4 = aux ∧ offset20 w = off := by
  have hfield : field w 14 4 = aux ∧ field w 18 6 * 16384 + field w 0 14 = off.toNat := by
    simp only [field, destField] at *
    omega
  obtain ⟨haux, hvalue⟩ := hfield
  exact ⟨haux, by rw [offset20, hvalue, BitVec.ofNat_toNat, BitVec.setWidth_eq]⟩
end

/-! ### Specifier fields -/

theorem specifierOk_iff (n : Nat) : specifierOk n = true ↔ n < 64 := by simp [specifierOk]

theorem destField_lt (w : Word) : destField w < 64 := field_lt w 18 6
theorem baseField_lt (w : Word) : baseField w < 64 := field_lt w 6 6
theorem indexField_lt (w : Word) : indexField w < 64 := field_lt w 0 6

@[simp] theorem specifierOk_destField (w : Word) : specifierOk (destField w) = true :=
  (specifierOk_iff _).mpr (destField_lt w)
@[simp] theorem specifierOk_baseField (w : Word) : specifierOk (baseField w) = true :=
  (specifierOk_iff _).mpr (baseField_lt w)
@[simp] theorem specifierOk_indexField (w : Word) : specifierOk (indexField w) = true :=
  (specifierOk_iff _).mpr (indexField_lt w)

end Sys2Proof
end

section
/-! PROOFS. The decoder on the word an instruction is encoded in, by the layout of the word (R112 to R128), and the
source's examples. -/
namespace Sys2Proof

section
variable {op d b x aux low : Nat} {i : Instr} (b31 b30 : Bool) (m : MMode) (b26 b25 b24 : Bool)

/-- A word decodes as its fields say. -/
theorem decode_opWord (hd : d < 64) (hlow : low < 2 ^ 18)
    (hdecode : ∀ w, HasOpcode w b31 b30 m b26 b25 b24 → destField w = d → field w 0 18 = low → decode w = .ok i)
    (hop : op = opcodeByte b31 b30 m b26 b25 b24) : decode (opWord op d low) = .ok i := by
  obtain ⟨hopcode, hdest, hrest⟩ := fields_opWord (hop ▸ opcodeByte_lt) hd hlow
  exact hdecode _ (hasOpcode_of_field (hopcode.trans hop)) hdest hrest

/-- The low bits are the AUXCODE alone. -/
theorem decode_opWord_auxcode (hlow : low = 0x4000 * aux) (h : specifierOk d = true)
    (hdecode : ∀ w, HasOpcode w b31 b30 m b26 b25 b24 → destField w = d →
      field w 14 4 = aux → decode w = .ok i)
    (hop : op = opcodeByte b31 b30 m b26 b25 b24 := by
      simp only [opcodeByte, MMode.code, Bool.toNat_true, Bool.toNat_false] <;> omega)
    (haux : aux < 16 := by decide) : decode (opWord op d low) = .ok i := by
  have hd : d < 64 := (specifierOk_iff d).mp h
  exact decode_opWord b31 b30 m b26 b25 b24 hd (by omega)
    (fun w o dest rest => hdecode w o dest (auxcode_of_low (rest.trans hlow))) hop

/-- The low bits hold AUXCODE and INDEX. -/
theorem decode_opWord_index (hlow : low = 0x4000 * aux + x) (h : (specifierOk d && specifierOk x) = true)
    (hdecode : ∀ w, HasOpcode w b31 b30 m b26 b25 b24 → destField w = d →
      field w 14 4 = aux ∧ indexField w = x → decode w = .ok i)
    (hop : op = opcodeByte b31 b30 m b26 b25 b24 := by
      simp only [opcodeByte, MMode.code, Bool.toNat_true, Bool.toNat_false] <;> omega)
    (haux : aux < 16 := by decide) : decode (opWord op d low) = .ok i := by
  obtain ⟨hd, hx⟩ : d < 64 ∧ x < 64 := by simpa only [Bool.and_eq_true, specifierOk_iff] using h
  exact decode_opWord b31 b30 m b26 b25 b24 hd (by omega)
    (fun w o dest rest => hdecode w o dest (fields_of_index (rest.trans hlow) hx)) hop

/-- The low bits hold AUXCODE and SOURCE or LOCATION. -/
theorem decode_opWord_base (hlow : low = 0x4000 * aux + 64 * b) (h : (specifierOk d && specifierOk b) = true)
    (hdecode : ∀ w, HasOpcode w b31 b30 m b26 b25 b24 → destField w = d →
      field w 14 4 = aux ∧ baseField w = b → decode w = .ok i)
    (hop : op = opcodeByte b31 b30 m b26 b25 b24 := by
      simp only [opcodeByte, MMode.code, Bool.toNat_true, Bool.toNat_false] <;> omega)
    (haux : aux < 16 := by decide) : decode (opWord op d low) = .ok i := by
  obtain ⟨hd, hb⟩ : d < 64 ∧ b < 64 := by simpa only [Bool.and_eq_true, specifierOk_iff] using h
  exact decode_opWord b31 b30 m b26 b25 b24 hd (by omega)
    (fun w o dest rest => hdecode w o dest (fields_of_base (rest.trans hlow) hb)) hop

/-- The low bits hold AUXCODE, BASE and INDEX, or AUXCODE and two sources. -/
theorem decode_opWord_base_index (hlow : low = 0x4000 * aux + 64 * b + x)
    (h : (specifierOk d && specifierOk b && specifierOk x) = true)
    (hdecode : ∀ w, HasOpcode w b31 b30 m b26 b25 b24 → destField w = d →
      field w 14 4 = aux ∧ baseField w = b ∧ indexField w = x → decode w = .ok i)
    (hop : op = opcodeByte b31 b30 m b26 b25 b24 := by
      simp only [opcodeByte, MMode.code, Bool.toNat_true, Bool.toNat_false] <;> omega)
    (haux : aux < 16 := by decide) : decode (opWord op d low) = .ok i := by
  obtain ⟨⟨hd, hb⟩, hx⟩ : (d < 64 ∧ b < 64) ∧ x < 64 := by
    simpa only [Bool.and_eq_true, specifierOk_iff] using h
  exact decode_opWord b31 b30 m b26 b25 b24 hd (by omega)
    (fun w o dest rest => hdecode w o dest (fields_of_base_index (rest.trans hlow) hb hx)) hop

/-- The low bits hold AUXCODE and IMMEDIATE14 or OFFSET14. -/
theorem decode_opWord_immediate14 {imm : BitVec 14} (hlow : low = 0x4000 * aux + imm.toNat) (h : specifierOk d = true)
    (hdecode : ∀ w, HasOpcode w b31 b30 m b26 b25 b24 → destField w = d →
      field w 14 4 = aux ∧ immediate14 w = imm → decode w = .ok i)
    (hop : op = opcodeByte b31 b30 m b26 b25 b24 := by
      simp only [opcodeByte, MMode.code, Bool.toNat_true, Bool.toNat_false] <;> omega)
    (haux : aux < 16 := by decide) : decode (opWord op d low) = .ok i := by
  have hd : d < 64 := (specifierOk_iff d).mp h
  have himm := imm.isLt
  exact decode_opWord b31 b30 m b26 b25 b24 hd (by omega)
    (fun w o dest rest => hdecode w o dest (fields_of_immediate14 (rest.trans hlow))) hop

/-- The low bits hold AUXCODE, SOURCE and IMMEDIATE8. -/
theorem decode_opWord_immediate8 {imm : BitVec 8}
    (hlow : low = 0x4000 * aux + 4096 * (imm.toNat / 64) + 64 * b + imm.toNat % 64)
    (h : (specifierOk d && specifierOk b) = true)
    (hdecode : ∀ w, HasOpcode w b31 b30 m b26 b25 b24 → destField w = d →
      field w 14 4 = aux ∧ baseField w = b ∧ immediate8 w = imm → decode w = .ok i)
    (hop : op = opcodeByte b31 b30 m b26 b25 b24 := by
      simp only [opcodeByte, MMode.code, Bool.toNat_true, Bool.toNat_false] <;> omega)
    (haux : aux < 16 := by decide) : decode (opWord op d low) = .ok i := by
  obtain ⟨hd, hb⟩ : d < 64 ∧ b < 64 := by simpa only [Bool.and_eq_true, specifierOk_iff] using h
  have himm := imm.isLt
  exact decode_opWord b31 b30 m b26 b25 b24 hd (by omega)
    (fun w o dest rest => hdecode w o dest (fields_of_immediate8 (rest.trans hlow) hb)) hop

/-- The low bits hold BASE and OFFSET12. -/
theorem decode_opWord_offset12 {off : BitVec 12}
    (hlow : low = 4096 * (off.toNat / 64) + 64 * b + off.toNat % 64)
    (h : (specifierOk d && specifierOk b) = true)
    (hdecode : ∀ w, HasOpcode w b31 b30 m b26 b25 b24 → destField w = d →
      baseField w = b ∧ offset12 w = off → decode w = .ok i)
    (hop : op = opcodeByte b31 b30 m b26 b25 b24 := by
      simp only [opcodeByte, MMode.code, Bool.toNat_true, Bool.toNat_false] <;> omega) :
    decode (opWord op d low) = .ok i := by
  obtain ⟨hd, hb⟩ : d < 64 ∧ b < 64 := by simpa only [Bool.and_eq_true, specifierOk_iff] using h
  have hoff := off.isLt
  exact decode_opWord b31 b30 m b26 b25 b24 hd (by omega)
    (fun w o dest rest => hdecode w o dest (fields_of_offset12 (rest.trans hlow) hb)) hop

/-- OFFSET20 lies in the ARGUMENT bits and below the AUXCODE (R127). -/
theorem decode_opWord_offset20 {off : BitVec 20} (hd : d = off.toNat / 16384)
    (hlow : low = 0x4000 * aux + off.toNat % 16384)
    (hdecode : ∀ w, HasOpcode w b31 b30 m b26 b25 b24 → field w 14 4 = aux ∧ offset20 w = off → decode w = .ok i)
    (hop : op = opcodeByte b31 b30 m b26 b25 b24 := by
      simp only [opcodeByte, MMode.code, Bool.toNat_true, Bool.toNat_false] <;> omega)
    (haux : aux < 16 := by decide) : decode (opWord op d low) = .ok i := by
  have hoff := off.isLt
  exact decode_opWord b31 b30 m b26 b25 b24 (by omega) (by omega)
    (fun w o dest rest => hdecode w o (fields_of_offset20 (dest.trans hd) (rest.trans hlow))) hop
end

/-- The word of a well-formed instruction decodes to it. The cases go by the decoder that the OPCODE selects and by the
layout of the low 18 bits. -/
theorem decode_encode (i : Instr) (h : i.wellFormed = true) : decode (encode i) = .ok i := by
  cases i with
  -- Memory transfers (R114, R115)
  | loadDisp m d b off =>
    exact decode_opWord_offset12 true true m true false false rfl h fun w o hdest hlow => by
      simp [o.decode_displacement, hdest, hlow]
  | loadReg m d x =>
    exact decode_opWord_index (aux := 0) true true m false false false (Nat.zero_add _).symm h
      fun w o hdest hlow => by simp [o.decode_load, decodeLoad, o.mode, hdest, hlow]
  | loadRegPostInc m d x | loadRegPostDec m d x | loadRegPreInc m d x | loadRegPreDec m d x =>
    exact decode_opWord_index true true m false false false rfl h fun w o hdest hlow => by
      simp [o.decode_load, decodeLoad, o.mode, hdest, hlow]
  | loadIdx m d b x | loadIdxPostInc m d b x | loadIdxPostDec m d b x | loadIdxPreInc m d b x
  | loadIdxPreDec m d b x =>
    exact decode_opWord_base_index true true m false false false rfl h fun w o hdest hlow => by
      simp [o.decode_load, decodeLoad, o.mode, hdest, hlow]
  | storeDisp m d b off =>
    exact decode_opWord_offset12 true false m true false false rfl h fun w o hdest hlow => by
      simp [o.decode_displacement, hdest, hlow]
  | storeReg m d x =>
    exact decode_opWord_index (aux := 0) true false m false false false (Nat.zero_add _).symm h
      fun w o hdest hlow => by simp [o.decode_store, decodeStore, o.mode, hdest, hlow]
  | storeRegPostInc m d x | storeRegPostDec m d x | storeRegPreInc m d x | storeRegPreDec m d x =>
    exact decode_opWord_index true false m false false false rfl h fun w o hdest hlow => by
      simp [o.decode_store, decodeStore, o.mode, hdest, hlow]
  | storeIdx m d b x | storeIdxPostInc m d b x | storeIdxPostDec m d b x | storeIdxPreInc m d b x
  | storeIdxPreDec m d b x =>
    exact decode_opWord_base_index true false m false false false rfl h fun w o hdest hlow => by
      simp [o.decode_store, decodeStore, o.mode, hdest, hlow]
  | loadLockedDisp m d b off =>
    exact decode_opWord_offset12 true true m true true false rfl h fun w o hdest hlow => by
      simp [o.decode_displacement, hdest, hlow]
  | loadLockedReg m d x =>
    exact decode_opWord_index (aux := 0) true true m false true false (Nat.zero_add _).symm h
      fun w o hdest hlow => by simp [o.decode_loadLocked, decodeLoadLocked, o.mode, hdest, hlow]
  | loadLockedRegPostInc m d x | loadLockedRegPostDec m d x | loadLockedRegPreInc m d x
  | loadLockedRegPreDec m d x =>
    exact decode_opWord_index true true m false true false rfl h fun w o hdest hlow => by
      simp [o.decode_loadLocked, decodeLoadLocked, o.mode, hdest, hlow]
  | loadLockedIdx m d b x | loadLockedIdxPostInc m d b x | loadLockedIdxPostDec m d b x
  | loadLockedIdxPreInc m d b x | loadLockedIdxPreDec m d b x =>
    exact decode_opWord_base_index true true m false true false rfl h fun w o hdest hlow => by
      simp [o.decode_loadLocked, decodeLoadLocked, o.mode, hdest, hlow]
  | storeCondDisp m d b off =>
    exact decode_opWord_offset12 true false m true true false rfl h fun w o hdest hlow => by
      simp [o.decode_displacement, hdest, hlow]
  | storeCondReg m d x =>
    exact decode_opWord_index (aux := 0) true false m false true false (Nat.zero_add _).symm h
      fun w o hdest hlow => by simp [o.decode_storeCond, decodeStoreCond, o.mode, hdest, hlow]
  | storeCondRegPostInc m d x | storeCondRegPostDec m d x | storeCondRegPreInc m d x | storeCondRegPreDec m d x =>
    exact decode_opWord_index true false m false true false rfl h fun w o hdest hlow => by
      simp [o.decode_storeCond, decodeStoreCond, o.mode, hdest, hlow]
  | storeCondIdx m d b x | storeCondIdxPostInc m d b x | storeCondIdxPostDec m d b x
  | storeCondIdxPreInc m d b x | storeCondIdxPreDec m d b x =>
    exact decode_opWord_base_index true false m false true false rfl h fun w o hdest hlow => by
      simp [o.decode_storeCond, decodeStoreCond, o.mode, hdest, hlow]
  -- Inter-register transfers and load immediate (R116, R117)
  | movRegReg m d x =>
    exact decode_opWord_index (aux := 0) true true m false false true (Nat.zero_add _).symm h
      fun w o hdest hlow => by simp [o.decode_interRegister, decodeInterRegister, o.mode, hdest, hlow]
  | movRegSpc m d x | movSpcReg m d x | movRegDsp m d x | movDspReg m d x | movRegFpr m d x | movFprReg m d x =>
    exact decode_opWord_index true true m false false true rfl h fun w o hdest hlow => by
      simp [o.decode_interRegister, decodeInterRegister, o.mode, hdest, hlow]
  | loadImm m u d imm =>
    exact decode_opWord true true m true u true ((specifierOk_iff d).mp h) imm.isLt
      (fun w o hdest hlow => by simp [o.decode_loadImm, hdest, immediate18_of_low hlow])
      (by simp only [opcodeByte, Bool.toNat_true]; omega)
  -- Integer operations (R124)
  | addReg m u d r =>
    exact decode_opWord_base (aux := 0) false false m false u false (Nat.zero_add _).symm h
      fun w o hdest hlow => by simp [o.decode_integerReg, decodeIntegerReg, o.mode, o.bit25, hdest, hlow]
  | addImm m u d imm =>
    exact decode_opWord_immediate14 (aux := 0) false false m true u false (Nat.zero_add _).symm h
      fun w o hdest hlow => by simp [o.decode_integerImm, decodeIntegerImm, o.mode, o.bit25, hdest, hlow]
  | subReg m u d r | mulReg m u d r | divReg m u d r | slReg m u d r | srReg m u d r | andReg m u d r
  | nandReg m u d r | orReg m u d r | xorReg m u d r =>
    exact decode_opWord_base false false m false u false rfl h fun w o hdest hlow => by
      simp [o.decode_integerReg, decodeIntegerReg, o.mode, o.bit25, hdest, hlow]
  | subImm m u d imm | mulImm m u d imm | divImm m u d imm | slImm m u d imm | srImm m u d imm
  | andImm m u d imm | nandImm m u d imm | orImm m u d imm | xorImm m u d imm =>
    exact decode_opWord_immediate14 false false m true u false rfl h fun w o hdest hlow => by
      simp [o.decode_integerImm, decodeIntegerImm, o.mode, o.bit25, hdest, hlow]
  | rlReg m d r | sbReg m d r | tbReg m d r =>
    exact decode_opWord_base false false m false false false rfl h fun w o hdest hlow => by
      simp [o.decode_integerReg, decodeIntegerReg, o.mode, o.bit25, hdest, hlow]
  | rlImm m d imm | sbImm m d imm | tbImm m d imm =>
    exact decode_opWord_immediate14 false false m true false false rfl h fun w o hdest hlow => by
      simp [o.decode_integerImm, decodeIntegerImm, o.mode, o.bit25, hdest, hlow]
  | rrReg m d r | rbReg m d r | rvbReg m d r =>
    exact decode_opWord_base false false m false true false rfl h fun w o hdest hlow => by
      simp [o.decode_integerReg, decodeIntegerReg, o.mode, o.bit25, hdest, hlow]
  | rrImm m d imm | rbImm m d imm | rvbImm m d imm =>
    exact decode_opWord_immediate14 false false m true true false rfl h fun w o hdest hlow => by
      simp [o.decode_integerImm, decodeIntegerImm, o.mode, o.bit25, hdest, hlow]
  | madReg m u d r t | msuReg m u d r t =>
    exact decode_opWord_base_index false false m false u false rfl h fun w o hdest hlow => by
      simp [o.decode_integerReg, decodeIntegerReg, o.mode, o.bit25, hdest, hlow]
  | madImm m u d r imm | msuImm m u d r imm =>
    exact decode_opWord_immediate8 false false m true u false rfl h fun w o hdest hlow => by
      simp [o.decode_integerImm, decodeIntegerImm, o.mode, o.bit25, hdest, hlow]
  -- Floating point (R125)
  | fadd d r =>
    exact decode_opWord_base (aux := 0) false false .byte false false true (Nat.zero_add _).symm h
      fun w o hdest hlow => by
        simp [o.decode_float, decodeFloat, plainFloat, o.bit26, o.modeCode, MMode.code, o.bit25, hdest, hlow]
  | fsub d r | fmul d r | fdiv d r | frem d r | fcmp d r =>
    exact decode_opWord_base false false .byte false false true rfl h fun w o hdest hlow => by
      simp [o.decode_float, decodeFloat, plainFloat, o.bit26, o.modeCode, MMode.code, o.bit25, hdest, hlow]
  | fsqr d | fabs d | fneg d | frnd d =>
    exact decode_opWord_auxcode false false .byte false false true rfl h fun w o hdest hlow => by
      simp [o.decode_float, decodeFloat, plainFloat, o.bit26, o.modeCode, MMode.code, o.bit25, hdest, hlow]
  | ff2i m u d | fi2f m u d =>
    exact decode_opWord_auxcode false false m false u true rfl h fun w o hdest hlow => by
      simp [o.decode_float, decodeFloat, o.bit26, o.mode, o.bit25, hdest, hlow]
  | fextH d | fsqzH d =>
    exact decode_opWord_auxcode false false .half false false true rfl h fun w o hdest hlow => by
      simp [o.decode_float, decodeFloat, decodeExtend, decodeSqueeze, o.bit26, o.modeCode, MMode.code, o.bit25,
        hdest, hlow]
  | fextW d | fsqzW d =>
    exact decode_opWord_auxcode false false .word false false true rfl h fun w o hdest hlow => by
      simp [o.decode_float, decodeFloat, decodeExtend, decodeSqueeze, o.bit26, o.modeCode, MMode.code, o.bit25,
        hdest, hlow]
  | fextD d | fsqzD d =>
    exact decode_opWord_auxcode false false .dword false false true rfl h fun w o hdest hlow => by
      simp [o.decode_float, decodeFloat, decodeExtend, decodeSqueeze, o.bit26, o.modeCode, MMode.code, o.bit25,
        hdest, hlow]
  | fextQ d | fsqzQ d =>
    exact decode_opWord_auxcode false false .quad false false true rfl h fun w o hdest hlow => by
      simp [o.decode_float, decodeFloat, decodeExtend, decodeSqueeze, o.bit26, o.modeCode, MMode.code, o.bit25,
        hdest, hlow]
  | fext1 d | fsqz1 d =>
    exact decode_opWord_auxcode false false .sent false false true rfl h fun w o hdest hlow => by
      simp [o.decode_float, decodeFloat, decodeExtend, decodeSqueeze, o.bit26, o.modeCode, MMode.code, o.bit25,
        hdest, hlow]
  | fmad d r t | fmsu d r t =>
    exact decode_opWord_base_index false false .byte false false true rfl h fun w o hdest hlow => by
      simp [o.decode_float, decodeFloat, plainFloat, o.bit26, o.modeCode, MMode.code, o.bit25, hdest, hlow]
  -- Control (R128)
  | jmpReg a p l =>
    exact decode_opWord_base (aux := 0) false true .byte false a p (Nat.zero_add _).symm h
      fun w o _ hlow => by
        simp [o.decode_controlReg, decodeControlReg, o.modeCode, MMode.code, o.bit25, o.bit24, hlow]
  | jmpOff a p off =>
    exact decode_opWord_offset20 (aux := 0) false true .byte true a p rfl (Nat.zero_add _).symm fun w o hlow => by
      simp [o.decode_controlOff, decodeControlOff, o.modeCode, MMode.code, o.bit25, o.bit24, hlow]
  | bzReg m a p g l | bnzReg m a p g l | bmReg m a p g l | bmzReg m a p g l | bnmReg m a p g l
  | bnmoReg m a p g l | blReg m a p g l | blzReg m a p g l | bnlReg m a p g l | bnloReg m a p g l
  | boReg m a p g l | bnoReg m a p g l =>
    exact decode_opWord_base false true m false a p rfl h fun w o hdest hlow => by
      simp [o.decode_controlReg, decodeControlReg, o.mode, o.bit25, o.bit24, hdest, hlow]
  | bzOff m a p g off | bnzOff m a p g off | bmOff m a p g off | bmzOff m a p g off | bnmOff m a p g off
  | bnmoOff m a p g off | blOff m a p g off | blzOff m a p g off | bnlOff m a p g off | bnloOff m a p g off
  | boOff m a p g off | bnoOff m a p g off =>
    exact decode_opWord_immediate14 false true m true a p rfl h fun w o hdest hlow => by
      simp [o.decode_controlOff, decodeControlOff, o.mode, o.bit25, o.bit24, hdest, hlow]
  | ret p =>
    exact decode_opWord_auxcode false true .byte false false p rfl h fun w o _ haux => by
      simp [o.decode_return haux, decodeReturn, o.bit26, o.bit25, o.bit24, o.modeCode, MMode.code]
  | reti p =>
    exact decode_opWord_auxcode false true .half false false p rfl h fun w o _ haux => by
      simp [o.decode_return haux, decodeReturn, o.bit26, o.bit25, o.bit24, o.modeCode, MMode.code]
  | rete p =>
    exact decode_opWord_auxcode false true .word false false p rfl h fun w o _ haux => by
      simp [o.decode_return haux, decodeReturn, o.bit26, o.bit25, o.bit24, o.modeCode, MMode.code]
  | retn p =>
    exact decode_opWord_auxcode false true .dword false false p rfl h fun w o _ haux => by
      simp [o.decode_return haux, decodeReturn, o.bit26, o.bit25, o.bit24, o.modeCode, MMode.code]
  | waitReg l =>
    exact decode_opWord_base false true .byte false false false rfl h fun w o _ hlow => by
      simp [o.decode_controlReg, decodeControlReg, o.modeCode, MMode.code, o.bit25, o.bit24, hlow]
  | waitImm n =>
    exact decode_opWord_offset20 false true .byte true false false rfl rfl fun w o hlow => by
      simp [o.decode_controlOff, decodeControlOff, o.modeCode, MMode.code, o.bit25, o.bit24, hlow]

/-- Settles O1, one case for each decoder and layout of the low bits. -/
theorem decodeOfEncodeIsIdentity : Obligations.DecodeOfEncodeIsIdentity := decode_encode

/-- Settles O3, word by word. -/
theorem exampleWordsDecode : Obligations.ExampleWordsDecode := by
  unfold Obligations.ExampleWordsDecode
  decide

end Sys2Proof
end

section
/-! PROOFS. What the decoder reads is well-formed and keeps the bits that select the instruction (R112, R118, R126,
R129). -/
namespace Sys2Proof

theorem plainFloat_eq_ok {w : Word} {i j : Instr} :
    plainFloat w i = .ok j ↔ (field w 27 3 = 0 ∧ flag w 25 = false) ∧ i = j := by
  unfold plainFloat
  split <;> simp [*]

/-- `i` is well-formed, and the bits of its own word that select an instruction are those of `w` (R112, R118, R126). -/
def KeepsSelector (w : Word) (i : Instr) : Prop :=
  i.wellFormed = true ∧ field w 24 8 = field (encode i) 24 8
    ∧ ((flag w 31 && flag w 26) = false → field w 14 4 = field (encode i) 14 4)

/-- The AUXCODE lies in the low 18 bits. -/
theorem auxcode_eq (w : Word) : field w 14 4 = field w 0 18 / 0x4000 := by
  simp only [field]
  omega

section
variable {w : Word} {i : Instr} {op d low : Nat}

theorem keepsSelector_of_encode (hencode : encode i = opWord op d low) (hop : field w 24 8 = op) (hd : d < 64)
    (hlow : low < 2 ^ 18) (haux : (flag w 31 && flag w 26) = false → field w 14 4 = low / 0x4000)
    (hwf : i.wellFormed = true := by unfold Instr.wellFormed; simp) : KeepsSelector w i := by
  obtain ⟨hopcode, -, hrest⟩ := fields_opWord (hop ▸ field_lt w 24 8) hd hlow
  rw [← hencode] at hopcode hrest
  exact ⟨hwf, hop.trans hopcode.symm, fun hform => (haux hform).trans (by rw [auxcode_eq, hrest])⟩

/-- With the AUXCODE above the operand bits. -/
theorem keepsSelector_of_auxcode {aux : Nat} (hencode : encode i = opWord op d low) (hop : field w 24 8 = op)
    (hd : d < 64) (haux : field w 14 4 = aux) (hlow : low / 0x4000 = aux)
    (hwf : i.wellFormed = true := by unfold Instr.wellFormed; simp) : KeepsSelector w i := by
  have hlt := field_lt w 14 4
  exact keepsSelector_of_encode hencode hop hd (by omega) (fun _ => by omega) hwf
end

/-! ### Each decoder keeps the selecting bits -/

section
variable {w : Word} {i : Instr}

theorem decodeMemory_keepsSelector (h31 : flag w 31 = true) (h24 : flag w 24 = false) (h : decodeMemory w = .ok i) :
    KeepsSelector w i := by
  have hop := opcode_eq w
  have hd := destField_lt w
  have hb := baseField_lt w
  have hx := indexField_lt w
  have hoff := (offset12 w).isLt
  rw [h31, h24, ← code_modeField] at hop
  unfold decodeMemory decodeLoad decodeStore decodeLoadLocked decodeStoreCond at h
  split at h <;> rename_i h30 h25 h26 <;> simp only [h30, h25, h26, Bool.toNat_true, Bool.toNat_false] at hop
  -- The displacement forms, where the offset takes the place of the AUXCODE.
  case h_1 | h_3 | h_5 | h_7 =>
    cases h
    exact keepsSelector_of_encode rfl (by omega) hd (by omega)
      fun hform => by simp [h31, h26] at hform
  all_goals
    split at h <;> cases h
    all_goals exact keepsSelector_of_auxcode rfl (by omega) hd ‹_› (by omega)

theorem decodeInterRegister_keepsSelector (hop : field w 24 8 = 0xC1 + 8 * (modeField w).code)
    (h : decodeInterRegister w = .ok i) : KeepsSelector w i := by
  have hx := indexField_lt w
  unfold decodeInterRegister at h
  split at h <;> cases h
  all_goals exact keepsSelector_of_auxcode rfl hop (destField_lt w) ‹_› (by omega)

theorem decodeIntegerReg_keepsSelector
    (hop : field w 24 8 = 0x00 + 8 * (modeField w).code + 2 * (flag w 25).toNat)
    (h : decodeIntegerReg w = .ok i) : KeepsSelector w i := by
  have hb := baseField_lt w
  have hx := indexField_lt w
  unfold decodeIntegerReg at h
  split at h
  -- RL and RR, SB and RB, TB and RVB: the U bit tells the two apart.
  case h_7 | h_12 | h_13 =>
    cases h
    cases hu : flag w 25 <;> simp only [hu, Bool.toNat_true, Bool.toNat_false] at hop
    all_goals exact keepsSelector_of_auxcode rfl (by omega) (destField_lt w) ‹_› (by omega)
  all_goals cases h
  all_goals exact keepsSelector_of_auxcode rfl hop (destField_lt w) ‹_› (by omega)

theorem decodeIntegerImm_keepsSelector
    (hop : field w 24 8 = 0x04 + 8 * (modeField w).code + 2 * (flag w 25).toNat)
    (h : decodeIntegerImm w = .ok i) : KeepsSelector w i := by
  have hb := baseField_lt w
  have himm14 := (immediate14 w).isLt
  have himm8 := (immediate8 w).isLt
  unfold decodeIntegerImm at h
  split at h
  -- RL and RR, SB and RB, TB and RVB: the U bit tells the two apart.
  case h_7 | h_12 | h_13 =>
    cases h
    cases hu : flag w 25 <;> simp only [hu, Bool.toNat_true, Bool.toNat_false] at hop
    all_goals exact keepsSelector_of_auxcode rfl (by omega) (destField_lt w) ‹_› (by omega)
  all_goals cases h
  all_goals exact keepsSelector_of_auxcode rfl hop (destField_lt w) ‹_› (by omega)

/-- The operations that fix MMODE and U at 0 (R123, R132) keep an OPCODE of 1. -/
theorem decodeFloat_keepsSelector
    (hop : field w 24 8 = 0x01 + 8 * field w 27 3 + 4 * (flag w 26).toNat + 2 * (flag w 25).toNat)
    (h : decodeFloat w = .ok i) : KeepsSelector w i := by
  have hb := baseField_lt w
  have hx := indexField_lt w
  have hm := code_modeField w
  unfold decodeFloat decodeExtend decodeSqueeze at h
  split at h
  · cases h
  next h26 =>
  simp only [h26, Bool.toNat_false] at hop
  split at h
  -- FF2I and FI2F have every mode.
  case h_11 | h_12 =>
    cases h
    exact keepsSelector_of_auxcode rfl (by omega) (destField_lt w) ‹_› (by omega)
  -- FEXT and FSQZ: MMODE names the format.
  case h_13 | h_14 =>
    split at h
    · cases h
    next h25 =>
    simp only [h25, Bool.toNat_false] at hop
    split at h <;> cases h
    all_goals exact keepsSelector_of_auxcode rfl (by omega) (destField_lt w) ‹_› (by omega)
  -- FMSU, the decoder's last row.
  case h_16 =>
    have haux : field w 14 4 = 15 := by
      have hlt := field_lt w 14 4
      simp only [imp_false] at *
      omega
    obtain ⟨⟨hmode, h25⟩, rfl⟩ := plainFloat_eq_ok.mp h
    simp only [h25, Bool.toNat_false] at hop
    exact keepsSelector_of_auxcode rfl (by omega) (destField_lt w) haux (by omega)
  all_goals
    obtain ⟨⟨hmode, h25⟩, rfl⟩ := plainFloat_eq_ok.mp h
    simp only [h25, Bool.toNat_false] at hop
    exact keepsSelector_of_auxcode rfl (by omega) (destField_lt w) ‹_› (by omega)

theorem decodeReturn_keepsSelector (haux : field w 14 4 = 13)
    (hop : field w 24 8 = 0x40 + 8 * field w 27 3 + 4 * (flag w 26).toNat + 2 * (flag w 25).toNat + (flag w 24).toNat)
    (h : decodeReturn w = .ok i) : KeepsSelector w i := by
  unfold decodeReturn at h
  split at h
  · cases h
  next hform =>
  simp only [Bool.or_eq_true, not_or, Bool.not_eq_true] at hform
  obtain ⟨h26, h25⟩ := hform
  simp only [h26, h25, Bool.toNat_false] at hop
  split at h <;> cases h
  all_goals exact keepsSelector_of_auxcode rfl (by omega) (by decide) haux (by omega)

theorem decodeControlReg_keepsSelector (h26 : flag w 26 = false)
    (hop : field w 24 8 = 0x40 + 8 * (modeField w).code + 2 * (flag w 25).toNat + (flag w 24).toNat)
    (h : decodeControlReg w = .ok i) : KeepsSelector w i := by
  have hb := baseField_lt w
  have hm := code_modeField w
  unfold decodeControlReg at h
  split at h
  -- JMP, the returns and WAIT fix MMODE.
  case h_1 =>
    split at h <;> cases h
    exact keepsSelector_of_auxcode rfl (by omega) (by decide) ‹_› (by omega)
  case h_14 => exact decodeReturn_keepsSelector ‹_› (by rw [h26, hop, hm]; rfl) h
  case h_15 =>
    dsimp only at h
    split at h <;> cases h
    next hform =>
    obtain ⟨hmode, h25, h24⟩ := hform
    simp only [h25, h24, Bool.toNat_false] at hop
    exact keepsSelector_of_auxcode rfl (by omega) (by decide) ‹_› (by omega)
  all_goals cases h
  all_goals exact keepsSelector_of_auxcode rfl hop (destField_lt w) ‹_› (by omega)

theorem decodeControlOff_keepsSelector (h26 : flag w 26 = true)
    (hop : field w 24 8 = 0x44 + 8 * (modeField w).code + 2 * (flag w 25).toNat + (flag w 24).toNat)
    (h : decodeControlOff w = .ok i) : KeepsSelector w i := by
  have himm := (immediate14 w).isLt
  have hoff := (offset20 w).isLt
  have hm := code_modeField w
  unfold decodeControlOff at h
  split at h
  -- JMP, the returns and WAIT fix MMODE.
  case h_1 =>
    split at h <;> cases h
    exact keepsSelector_of_auxcode rfl (by omega) (by omega) ‹_› (by omega)
  case h_14 => simp [decodeReturn, h26] at h
  case h_15 =>
    dsimp only at h
    split at h <;> cases h
    next hform =>
    obtain ⟨hmode, h25, h24⟩ := hform
    simp only [h25, h24, Bool.toNat_false] at hop
    exact keepsSelector_of_auxcode rfl (by omega) (by omega) ‹_› (by omega)
  all_goals cases h
  all_goals exact keepsSelector_of_auxcode rfl hop (destField_lt w) ‹_› (by omega)

/-- What the decoder reads is well-formed and keeps the bits that select the instruction: the decoder tells D, L, O
and F apart first (R111). -/
theorem keepsSelector_of_decode (h : decode w = .ok i) : KeepsSelector w i := by
  have hop := opcode_eq w
  rw [← code_modeField] at hop
  match h31 : flag w 31, h30 : flag w 30, h26 : flag w 26, h24 : flag w 24 with
  | true, _, _, false => exact decodeMemory_keepsSelector h31 h24 (by simpa [decode, decodeTransfer, h31, h24] using h)
  | true, false, _, true => simp [decode, decodeTransfer, h31, h30, h24] at h
  | true, true, true, true =>
    rw [HasOpcode.decode_loadImm ⟨h31, h30, rfl, h26, rfl, h24⟩] at h
    simp only [h31, h30, h26, h24, Bool.toNat_true] at hop
    cases h
    exact keepsSelector_of_encode rfl (by omega) (destField_lt w) (immediate18 w).isLt
      fun hform => by simp [h31, h26] at hform
  | true, true, false, true =>
    cases h25 : flag w 25 with
    | true => simp [decode, decodeTransfer, h31, h30, h26, h25, h24] at h
    | false =>
      rw [HasOpcode.decode_interRegister ⟨h31, h30, rfl, h26, h25, h24⟩] at h
      simp only [h31, h30, h26, h25, h24, Bool.toNat_true, Bool.toNat_false] at hop
      exact decodeInterRegister_keepsSelector (by omega) h
  | false, true, true, _ =>
    rw [HasOpcode.decode_controlOff ⟨h31, h30, rfl, h26, rfl, rfl⟩] at h
    simp only [h31, h30, h26, Bool.toNat_true, Bool.toNat_false] at hop
    exact decodeControlOff_keepsSelector h26 (by omega) h
  | false, true, false, _ =>
    rw [HasOpcode.decode_controlReg ⟨h31, h30, rfl, h26, rfl, rfl⟩] at h
    simp only [h31, h30, h26, Bool.toNat_true, Bool.toNat_false] at hop
    exact decodeControlReg_keepsSelector h26 (by omega) h
  | false, false, _, true =>
    rw [HasOpcode.decode_float ⟨h31, h30, rfl, rfl, rfl, h24⟩] at h
    simp only [h31, h30, h24, code_modeField, Bool.toNat_true, Bool.toNat_false] at hop
    exact decodeFloat_keepsSelector (by omega) h
  | false, false, true, false =>
    rw [HasOpcode.decode_integerImm ⟨h31, h30, rfl, h26, rfl, h24⟩] at h
    simp only [h31, h30, h26, h24, Bool.toNat_true, Bool.toNat_false] at hop
    exact decodeIntegerImm_keepsSelector (by omega) h
  | false, false, false, false =>
    rw [HasOpcode.decode_integerReg ⟨h31, h30, rfl, h26, rfl, h24⟩] at h
    simp only [h31, h30, h26, h24, Bool.toNat_false] at hop
    exact decodeIntegerReg_keepsSelector (by omega) h
end

/-- Settles O2: each decoder in turn keeps the bits it selects by. -/
theorem decodedWordHasItsOpcode : Obligations.DecodedWordHasItsOpcode := fun _ _ => keepsSelector_of_decode

end Sys2Proof
end

section
/-! PROOFS. What an instruction can change of memory and of the special registers: stores alone change memory, and
MOV to a special register alone writes those that the hardware does not (R175, R177, R182). -/
namespace Sys2Proof.Machine

/-! ### Memory -/

theorem RegWrites.mem {s u : State} (h : RegWrites s u) : u.mem = s.mem := by rw [h.frame]

/-- The memory an instruction leaves: what it stored where `storeTarget` says, or what there was (R175, R177). -/
theorem exec_mem {i : Instr} {s t : State} (h : exec i s = .next t) :
    t.mem = s.mem
      ∨ ∃ addr n v, storeTarget i s = some (addr, n) ∧ t.mem = Memory.writeBytes s.cfg s.mem addr n v n := by
  cases exec_effect i s t h with
  | refused e arithmetic => exact .inl (FlowKept.raiseCheck s e arithmetic).mem
  | trapped raised => exact .inl (FlowKept.abort s raised).mem
  | busError => exact .inl (FlowKept.dataBusError s).mem
  | computed raised flags u hu => exact .inl (by simp [hu.mem])
  | moved u hu r => exact .inl (by simp [hu.mem])
  | stored addr n v u r ht hu => exact .inr ⟨addr, n, v, ht, by simp [hu.regWrites.mem, State.memWrite]⟩
  | notStored u hu => exact .inl (by simp [hu.regWrites.mem])
  | special m d x => exact .inl (by rw [State.retire_mem, specialWritten_frame]; rfl)
  | transferred a p v => exact .inl (by simp [State.transfer])
  | notTaken => exact .inl (by simp)
  | returned p => exact .inl (by simp)
  | leftInterrupt p => exact .inl (by simp)
  | leftException p => exact .inl (by simp)
  | leftNmi p => exact .inl (by simp)
  | paused n => exact .inl rfl

/-- A wide write leaves the bytes outside it alone (R85). -/
theorem Memory.byteAt_writeBytes_of_not_inBytes {c : Config} {addr n a : Nat} (m : Memory) (v : Nat)
    (h : inBytes c addr n a = false) :
    Memory.byteAt (Memory.writeBytes c m addr n v n) a = Memory.byteAt m a := by
  refine Memory.byteAt_writeBytes_other _ _ _ _ _ _ _ fun i hi haddr => ?_
  rw [(inBytes_iff c addr n a).2 ⟨i, hi, haddr⟩] at h
  cases h

/-- Settles O17: what an instruction leaves in memory is a wide write at its own target, or nothing. -/
theorem onlyStoresChangeMemory : Obligations.OnlyStoresChangeMemory := by
  intro i s t h a ha
  rcases exec_mem h with hmem | ⟨addr, n, v, htarget, hmem⟩
  · rw [hmem]
  · rw [hmem, Memory.byteAt_writeBytes_of_not_inBytes _ _ (ha addr n htarget)]

/-! ### Special registers -/

/-- A return restores SCR bits 0, 2 and 3 (R50, R427). -/
theorem getLsbD_restoreScr (scr : Word) (saved : Option SavedBits) (n : Nat) (h0 : n ≠ 0) (h2 : n ≠ 2) (h3 : n ≠ 3) :
    (restoreScr scr saved).getLsbD n = scr.getLsbD n := by
  cases saved with
  | none => rfl
  | some b => rw [restoreScr, withSavedBits_getLsbD, if_neg h0, if_neg h2, if_neg h3]

/-- The special registers that no hardware writes while an instruction runs, and the environment's part of the state. -/
def State.softwareOwned (s : State) :=
  (s.exm, s.etb, s.itb, s.cid, s.pid, s.nrp, s.irp, s.ucr, s.dcr, s.spcExtra, s.cfg, s.irqPending, s.nmiPending,
    s.refused, s.inputs, s.resets)

/-- `t` is a state that the instruction which starts in `s` reaches with the hardware's writes of special registers
alone (R31): new bits of EXC, the instruction's word in EXI, IC + 1 in ERP and CRP, EST[15:0], SCR bits 0, 2 and 3. -/
structure HardwareWrites (s t : State) : Prop where
  owned : t.softwareOwned = s.softwareOwned
  ir : t.ir = s.ir
  crp : t.crp = s.crp ∨ t.crp = s.icNext
  est : ∀ n, 16 ≤ n → t.est.getLsbD n = s.est.getLsbD n
  exc : ∀ n, s.exc.getLsbD n = true → t.exc.getLsbD n = true
  exi : t.exi = s.exi ∨ t.exi = s.ir
  erp : t.erp = s.erp ∨ t.erp = s.icNext
  scr : ∀ n, n ≠ 0 → n ≠ 2 → n ≠ 3 → t.scr.getLsbD n = s.scr.getLsbD n
  banks : ∀ b, b ≠ s.bank → t.banks[b]? = s.banks[b]?

namespace HardwareWrites
variable {s t : State}

/-- A state with every special register as it was. -/
theorem of_eq (howned : t.softwareOwned = s.softwareOwned) (hir : t.ir = s.ir) (hcrp : t.crp = s.crp)
    (hest : t.est = s.est) (hexc : t.exc = s.exc) (hexi : t.exi = s.exi) (herp : t.erp = s.erp) (hscr : t.scr = s.scr)
    (hbanks : ∀ b, b ≠ s.bank → t.banks[b]? = s.banks[b]?) : HardwareWrites s t where
  owned := howned
  ir := hir
  crp := .inl hcrp
  est n _ := by rw [hest]
  exc n h := by rw [hexc, h]
  exi := .inl hexi
  erp := .inl herp
  scr n _ _ _ := by rw [hscr]
  banks := hbanks

theorem refl (s : State) : HardwareWrites s s := of_eq rfl rfl rfl rfl rfl rfl rfl rfl fun _ _ => rfl

/-- Writes of memory, the reservation and the register files write no special register. -/
theorem of_regWrites {m : Memory} {r : Option (Nat × Nat)}
    (h : RegWrites { s with mem := m, reservation := r } t) : HardwareWrites s t := by
  have hbanks := h.banks.2
  refine of_eq (by rw [h.frame]; rfl) ?_ ?_ ?_ ?_ ?_ ?_ ?_ hbanks <;> rw [h.frame]

theorem advance (h : HardwareWrites s t) : HardwareWrites s t.advance := { h with }

/-- Marking adds bits to EXC, with the instruction's word in EXI (R41, R42). -/
theorem mark (h : HardwareWrites s t) (es : List Exc) : HardwareWrites s (t.mark es) := by
  cases es with
  | nil => exact h
  | cons e es =>
    exact { h with
      exc := fun n hn => by rw [State.mark_exc, markBits_getLsbD, h.exc n hn, Bool.true_or]
      exi := .inr h.ir }

theorem retire (h : HardwareWrites s t) (start : State) : HardwareWrites s (t.retire start) := by
  unfold State.retire
  split
  · exact { h with
      exc := fun n hn => by rw [BitVec.getLsbD_or, h.exc n hn, Bool.true_or]
      exi := .inr h.ir }
  · exact { h with }

/-- A trap enters handling with ERP = IC + 1 (R406). -/
theorem abort (s : State) (raised : List Exc) : HardwareWrites s (s.abort raised) :=
  { (refl s).mark raised with
    erp := .inr rfl
    scr := fun n h0 h2 h3 => by rw [State.abort_scr, withSavedBits_getLsbD, if_neg h0, if_neg h2, if_neg h3] }

/-- UNIMPLEMENTED OPERATION is EST[1] (R35). -/
theorem setUnimplementedFlag (s : State) : HardwareWrites s s.setUnimplementedFlag :=
  { refl s with
    est := fun n hn => by
      have hbit : (2#32).getLsbD n = false := by
        rw [BitVec.getLsbD_ofNat, show 2 = 2 ^ 1 from rfl, Nat.testBit_two_pow_of_ne (by omega), Bool.and_false]
      rw [State.setUnimplementedFlag_est, BitVec.getLsbD_or, hbit, Bool.or_false] }

theorem raiseCheck (s : State) (e : Exc) (arithmetic : Bool) : HardwareWrites s (s.raiseCheck e arithmetic) := by
  refine s.raiseCheck_rule e arithmetic (fun _ => abort s [e]) fun _ => ?_
  refine (mark ?_ [e]).advance.retire s
  split
  · exact setUnimplementedFlag s
  · exact refl s

/-- The flags are EST[15:0] (R205, R233, R291). -/
theorem withFlags (h : HardwareWrites s t) (flags : BitVec 16) :
    HardwareWrites s { t with est := Machine.withFlags t.est flags } :=
  { h with est := fun n hn => by rw [withFlags_getLsbD, if_neg (by omega), h.est n hn] }

end HardwareWrites

/-- Every instruction but MOV to a special register leaves the special registers to the hardware (R182). -/
theorem exec_hardwareWrites {i : Instr} {s t : State} (h : exec i s = .next t)
    (hspc : ∀ m d x, i ≠ .movSpcReg m d x) : HardwareWrites s t := by
  cases exec_effect i s t h with
  | refused e arithmetic => exact .raiseCheck s e arithmetic
  | trapped raised => exact .abort s raised
  | busError =>
    have line : HardwareWrites s { s.mark [.dSystemBusError] with errorLine := true } :=
      { (HardwareWrites.refl s).mark [.dSystemBusError] with }
    exact line.advance.retire s
  | computed raised flags u hu =>
    exact (((HardwareWrites.of_regWrites hu).withFlags flags).mark raised).advance.retire s
  | moved u hu r => exact (HardwareWrites.of_regWrites (hu.withReservation r)).advance.retire s
  | stored addr n v u r _ hu => exact (HardwareWrites.of_regWrites (s := s) hu.regWrites).advance.retire s
  | notStored u hu => exact (HardwareWrites.of_regWrites hu.regWrites).advance.retire s
  | special m d x hi => exact absurd hi (hspc m d x)
  | transferred a p v =>
    have hcrp : HardwareWrites s (s.transfer a p v) :=
      { HardwareWrites.refl s with crp := by cases p; exacts [.inl rfl, .inr rfl] }
    exact hcrp.retire s
  | notTaken => exact (HardwareWrites.refl s).advance.retire s
  | returned p =>
    have hic : HardwareWrites s { s with ic := returnTarget s.cfg p s.crp } := { HardwareWrites.refl s with }
    exact hic.retire s
  | leftInterrupt p =>
    have hscr : HardwareWrites s (s.leaveInterrupt p) :=
      { HardwareWrites.refl s with scr := getLsbD_restoreScr _ _ }
    exact hscr.retire s
  | leftException p =>
    have hscr : HardwareWrites s (s.leaveException p) :=
      { HardwareWrites.refl s with scr := getLsbD_restoreScr _ _ }
    exact hscr.retire s
  | leftNmi p =>
    have hscr : HardwareWrites s (s.leaveNmi p) :=
      { HardwareWrites.refl s with scr := getLsbD_restoreScr _ _ }
    exact hscr.retire s
  | paused n => exact { HardwareWrites.refl s with }

/-- Settles O18: each effect but the write of a special register is made of the hardware's writes. -/
theorem onlyMovWritesSpecialRegisters : Obligations.OnlyMovWritesSpecialRegisters := by
  intro i s t h hspc
  obtain ⟨howned, -, hcrp, hest, hexc, hexi, herp, hscr, hbanks⟩ := exec_hardwareWrites h hspc
  simp only [State.softwareOwned, Prod.mk.injEq] at howned
  obtain ⟨hexm, hetb, hitb, hcid, hpid, hnrp, hirp, hucr, hdcr, hextra, henvironment⟩ := howned
  exact ⟨hexm, hetb, hitb, hcid, hpid, hnrp, hirp, hucr, hdcr, hextra, hcrp, hest, hexc, hexi, herp, hscr, hbanks,
    henvironment⟩

end Sys2Proof.Machine
end

section
/-! PROOFS. The transfers complete, or write nothing where the platform refuses them: the memory transfers in their
eleven address forms, and the moves between registers but that to a special register (R171 to R188). -/
namespace Sys2Proof.Machine

/-! ### The GPR file in use -/

theorem visibleWidth_bounds (gprWidth : Nat) : 0 < visibleWidth gprWidth ∧ visibleWidth gprWidth ≤ 1024 := by
  unfold visibleWidth
  repeat' split
  all_goals omega

/-- A register as wide as the access is one register. -/
theorem partsNeeded_self_le (vw : Nat) : partsNeeded vw vw ≤ 1 := by
  rcases Nat.eq_zero_or_pos vw with rfl | hvw
  · simp [partsNeeded]
  · rw [partsNeeded, ← Nat.lt_succ_iff, Nat.div_lt_iff_lt_mul hvw]
    omega

section
variable {s : State}

/-- The file of the bank in use is the one put there (R26). -/
theorem State.gpr_withGpr (hbank : s.bank < s.banks.length) (f : List RegBits) : (s.withGpr f).gpr = f := by
  change (s.banks.set s.bank f).getD s.bank [] = f
  rw [List.getD_eq_getElem?_getD, List.getElem?_set_self hbank, Option.getD_some]

/-- The file of the bank in use put back changes nothing. -/
theorem State.withGpr_gpr (hbank : s.bank < s.banks.length) : s.withGpr s.gpr = s := by
  have hset : s.banks.set s.bank s.gpr = s.banks := by
    rw [State.gpr, List.getD_eq_getElem?_getD, List.getElem?_eq_getElem hbank, Option.getD_some,
      List.set_getElem_self]
  rw [State.withGpr, hset]

/-- A GPR write after the file of the bank in use was replaced. -/
theorem State.writeGpr_withGpr (hbank : s.bank < s.banks.length) (f : List RegBits) (n : Nat) {w : Nat}
    (v : BitVec w) : (s.withGpr f).writeGpr n v = s.withGpr (writeFile f s.vw n v) := by
  rw [State.writeGpr, State.gpr_withGpr hbank]
  change { s with banks := (s.banks.set s.bank f).set s.bank _ } = _
  rw [List.set_set]
  rfl

/-- A write of a file as long as the GPR file in use, bit by bit (R22, R25). -/
theorem fileUpdated_gpr {f : List RegBits} (hf : f.length = s.gpr.length) {n w : Nat} (v : BitVec w)
    (hn : n < s.gpr.length) (hparts : partsNeeded s.vw w ≤ s.gpr.length) :
    FileUpdated f (writeFile f s.vw n v) s.vw n v := by
  obtain ⟨hpos, hmax⟩ := visibleWidth_bounds s.cfg.gprWidth
  exact fileWriteIsBitwise f s.vw n w v hpos hmax (List.ne_nil_of_length_pos (by omega)) (by omega)

end

/-! ### The index register and the effective address (R171, R172) -/

theorem ofInt_toNat_add {w : Nat} (x : BitVec w) (k : Int) :
    BitVec.ofInt w (x.toNat + k) = x + BitVec.ofInt w k := by
  rw [BitVec.ofInt_add, BitVec.ofInt_natCast, BitVec.ofNat_toNat, BitVec.setWidth_eq]

/-- The index that forms the address, modulo 2^VW. -/
theorem IndexUpdate.used_eq (upd : IndexUpdate) (m : MMode) {w : Nat} (idx : BitVec w) :
    upd.used idx (BitVec.ofNat w m.bytes) = BitVec.ofInt w (idx.toNat + upd.before m) := by
  rw [ofInt_toNat_add]
  cases upd <;>
    simp [IndexUpdate.used, IndexUpdate.before, BitVec.ofInt_neg, BitVec.ofInt_natCast, BitVec.sub_eq_add_neg]

/-- The value an index register ends with, modulo 2^VW. -/
theorem IndexUpdate.next_eq (upd : IndexUpdate) (m : MMode) {w : Nat} (idx : BitVec w) :
    upd.next idx (BitVec.ofNat w m.bytes)
      = if upd = .none then Option.none else some (BitVec.ofInt w (idx.toNat + upd.change m)) := by
  rw [ofInt_toNat_add]
  cases upd <;>
    simp [IndexUpdate.next, IndexUpdate.change, BitVec.ofInt_neg, BitVec.ofInt_natCast, BitVec.sub_eq_add_neg]

/-- A sum modulo 2^w, cut to `p` bits. -/
theorem natCast_toNat_ofInt_mod (w p : Nat) (k : Int) :
    (((BitVec.ofInt w k).toNat % 2 ^ p : Nat) : Int) = k % 2 ^ w % 2 ^ p := by
  rw [BitVec.toNat_ofInt, Int.natCast_mod, Int.toNat_of_nonneg (Int.emod_nonneg _ (by positivity))]
  push_cast
  rfl

/-- The address a transfer uses is R171's. -/
theorem Addressing.address_eq (a : Addressing) (m : MMode) (s : State) :
    (a.address m s : Int) = effectiveAddress a m s := by
  have cut {v : BitVec s.vw} {k : Int} (hv : v = BitVec.ofInt s.vw k) :
      ((v.toNat % addressSpace s.cfg : Nat) : Int) = k % 2 ^ s.vw % 2 ^ s.cfg.physAddrWidth := by
    rw [hv]
    exact natCast_toNat_ofInt_mod _ _ _
  cases a with
  | displacement b off => exact cut (ofInt_toNat_add (s.readGpr b s.vw) off.toInt).symm
  | register x upd => exact cut (upd.used_eq m _)
  | indexed b x upd =>
    simp only [effectiveAddress, add_assoc]
    exact cut (by rw [ofInt_toNat_add, ← upd.used_eq m]; rfl)

section
variable {s : State} {m : MMode}

theorem updateIndex_register (x : Nat) (upd : IndexUpdate) (t : State) :
    (Addressing.register x upd).updateIndex m s t
      = if upd = .none then t
        else t.writeGpr x (BitVec.ofInt s.vw ((s.readGpr x s.vw).toNat + upd.change m)) := by
  rw [Addressing.updateIndex, upd.next_eq]
  by_cases hupd : upd = .none
  · rw [if_pos hupd, if_pos hupd]
  · rw [if_neg hupd, if_neg hupd]

/-- The GPR file in use after the index update of a form. -/
def Addressing.indexFile (a : Addressing) (m : MMode) (s : State) : List RegBits := (a.updateIndex m s s).gpr

/-- An index update puts its file in the bank in use, whatever became of memory and the reservation before it. -/
theorem Addressing.updateIndex_eq (a : Addressing) (hbank : s.bank < s.banks.length) (mem : Memory)
    (r : Option (Nat × Nat)) :
    a.updateIndex m s { s with mem := mem, reservation := r }
      = ({ s with mem := mem, reservation := r } : State).withGpr (a.indexFile m s) := by
  have same : ({ s with mem := mem, reservation := r } : State).withGpr s.gpr
      = { s with mem := mem, reservation := r } :=
    State.withGpr_gpr (s := { s with mem := mem, reservation := r }) hbank
  have register (x : Nat) (upd : IndexUpdate) :
      (Addressing.register x upd).updateIndex m s { s with mem := mem, reservation := r }
        = ({ s with mem := mem, reservation := r } : State).withGpr ((Addressing.register x upd).indexFile m s) := by
    rw [Addressing.indexFile, updateIndex_register, updateIndex_register]
    split
    · exact same.symm
    · rw [State.writeGpr, State.writeGpr, State.gpr_withGpr hbank]
      rfl
  cases a with
  | displacement b off => exact same.symm
  | register x upd => exact register x upd
  | indexed b x upd => exact register x upd

/-- The index register has the index with the change added, or nothing is written. -/
theorem Addressing.indexUpdated {a : Addressing} {w : Nat} (h : GprReady s w a.registers) :
    IndexUpdated a m s (a.indexFile m s) := by
  obtain ⟨hbank, -, -, hregs⟩ := h
  have register (x : Nat) (upd : IndexUpdate) (hx : x < s.gpr.length) :
      IndexUpdated (.register x upd) m s ((Addressing.register x upd).indexFile m s) := by
    rw [Addressing.indexFile, updateIndex_register, IndexUpdated]
    split
    · rfl
    · rw [State.writeGpr, State.gpr_withGpr hbank]
      exact fileUpdated_gpr rfl _ hx ((partsNeeded_self_le _).trans (by omega))
  cases a with
  | displacement b off => rfl
  | register x upd => exact register x upd (hregs x List.mem_cons_self)
  | indexed b x upd => exact register x upd (hregs x (List.mem_cons_of_mem _ List.mem_cons_self))

/-- An index update keeps the size of the file. -/
theorem IndexUpdated.length {a : Addressing} {g : List RegBits} (h : IndexUpdated a m s g) :
    g.length = s.gpr.length := by
  unfold IndexUpdated at h
  split at h
  · rw [h]
  all_goals
    split at h
    · rw [h]
    · exact h.1

end

/-! ### Completing -/

/-- What the completion of an instruction writes (R64, R412). -/
theorem State.retire_frame (u start : State) :
    u.retire start = { u with
      exc := (u.retire start).exc, exi := (u.retire start).exi, lastWord := (u.retire start).lastWord,
      debugDue := (u.retire start).debugDue } := by
  unfold State.retire
  split <;> rfl

section
variable {s : State} {m : MMode} {d : Nat} {a : Addressing}

/-- The state a transfer into GPRs, with its part in memory and the reservation, completes with. -/
def State.afterTransfer (s : State) (f : List RegBits) (mem : Memory) (r : Option (Nat × Nat)) : State :=
  (({ s with mem := mem, reservation := r } : State).withGpr f).advance.retire s

theorem State.afterTransfer_gpr (hbank : s.bank < s.banks.length) (f : List RegBits) (mem : Memory)
    (r : Option (Nat × Nat)) : (s.afterTransfer f mem r).gpr = f := by
  have hsame : (s.afterTransfer f mem r).bank = s.bank := by simp [State.afterTransfer, State.bank]
  have hbanks : (s.afterTransfer f mem r).banks = s.banks.set s.bank f := by
    rw [State.afterTransfer, State.retire_banks]
    rfl
  rw [State.gpr, hsame, hbanks, List.getD_eq_getElem?_getD, List.getElem?_set_self hbank, Option.getD_some]

/-- It changes the GPR file in use, memory, the reservation, and what completing writes. -/
theorem State.afterTransfer_frame (hbank : s.bank < s.banks.length) (f : List RegBits) (mem : Memory)
    (r : Option (Nat × Nat)) :
    s.afterTransfer f mem r = { s with
      banks := s.banks.set s.bank (s.afterTransfer f mem r).gpr, mem := mem, reservation := r, ic := s.icNext,
      exc := (s.afterTransfer f mem r).exc, exi := (s.afterTransfer f mem r).exi,
      lastWord := (s.afterTransfer f mem r).lastWord, debugDue := (s.afterTransfer f mem r).debugDue } := by
  rw [State.afterTransfer_gpr hbank]
  exact State.retire_frame _ _

@[simp] theorem State.afterTransfer_mem (f : List RegBits) (mem : Memory) (r : Option (Nat × Nat)) :
    (s.afterTransfer f mem r).mem = mem := by
  simp [State.afterTransfer]

theorem State.afterTransfer_completed (f : List RegBits) (mem : Memory) (r : Option (Nat × Nat)) :
    Completed s (s.afterTransfer f mem r) [] :=
  State.retire_completed s (({ s with mem := mem, reservation := r } : State).withGpr f).advance [] rfl rfl rfl rfl

/-! ### The checks of a transfer -/

/-- Where the bank, the word, the width and the registers are there, no check holds (R173). -/
theorem GprReady.firstHit_gprChecks_eq_none {w : Nat} {regs : List Nat} {implemented : Bool}
    (h : GprReady s w regs) (himp : implemented = true) : firstHit (s.gprChecks implemented w regs) = none := by
  obtain ⟨-, hlacks, hparts, hregs⟩ := h
  have hexist : regs.any (missing s.gpr) = false := by simpa [missing] using hregs
  rw [State.gprChecks, firstHit_cons_of_false _ _ (by simp [himp, hlacks, (accessFits_eq_true ..).2 (.inr hparts)]),
    firstHit_cons_of_false _ _ hexist]
  rfl

/-- The registers of the address form alone. -/
theorem GprReady.address {w : Nat} (h : GprReady s w (d :: a.registers)) : GprReady s w a.registers := by
  obtain ⟨hbank, hlacks, hparts, hregs⟩ := h
  exact ⟨hbank, hlacks, hparts, fun r hr => hregs r (List.mem_cons_of_mem _ hr)⟩

/-! ### The memory transfers -/

/-- The index update first, the destination second (R172). -/
theorem writeGpr_updateIndex (hbank : s.bank < s.banks.length) (mem : Memory) (r : Option (Nat × Nat)) {w : Nat}
    (v : BitVec w) :
    (a.updateIndex m s { s with mem := mem, reservation := r }).writeGpr d v
      = ({ s with mem := mem, reservation := r } : State).withGpr (writeFile (a.indexFile m s) s.vw d v) := by
  rw [a.updateIndex_eq hbank]
  exact State.writeGpr_withGpr (s := { s with mem := mem, reservation := r }) hbank _ _ _

/-- Each form runs the transfer of its kind at its address form (R174 to R177). -/
theorem exec_memoryForms (s : State) (m : MMode) (d : Nat) (a : Addressing) :
    exec (loadForm m d a) s = .next (runLoad m d a s)
      ∧ exec (storeForm m d a) s = .next (runStore m d a s)
      ∧ exec (loadLockedForm m d a) s = .next (runLoadLocked m d a s)
      ∧ exec (storeCondForm m d a) s = .next (runStoreConditional m d a s) := by
  cases a with
  | displacement b off => and_intros <;> rfl
  | register x upd => cases upd <;> and_intros <;> rfl
  | indexed b x upd => cases upd <;> and_intros <;> rfl

/-- A memory transfer whose checks pass does its work. -/
theorem GprReady.memory_guarded (h : GprReady s m.width (d :: a.registers)) (hmode : s.hasTransfer m = true)
    (work : State) : s.guarded false (s.memoryChecks m d a) work = work :=
  s.guarded_of_none _ _ _ (h.firstHit_gprChecks_eq_none hmode)

/-- A load that is not refused, and a load-locked with its reservation (R174, R176). -/
theorem exec_load_allowed (locked : Bool) (h : GprReady s m.width (d :: a.registers)) (hmode : s.hasTransfer m = true)
    (hbus : s.busError .load (a.address m s) m.bytes = false) :
    exec (if locked then loadLockedForm m d a else loadForm m d a) s
      = .next (s.afterTransfer
          (writeFile (a.indexFile m s) s.vw d (BitVec.ofNat m.width (s.memRead (a.address m s) m.bytes))) s.mem
          (if locked then some (a.address m s, m.bytes) else s.reservation)) := by
  have hwork : loaded m d a s = s.withGpr (writeFile (a.indexFile m s) s.vw d _) :=
    writeGpr_updateIndex h.1 s.mem s.reservation _
  have ⟨hload, _, hlocked, _⟩ := exec_memoryForms s m d a
  cases locked with
  | true =>
    rw [if_pos rfl, if_pos rfl, hlocked, runLoadLocked, h.memory_guarded hmode, hbus, hwork]
    rfl
  | false =>
    rw [if_neg nofun, if_neg nofun, hload, runLoad, h.memory_guarded hmode, hbus, hwork]
    rfl

/-- A store that is not refused (R175). -/
theorem exec_store_allowed (h : GprReady s m.width (d :: a.registers)) (hmode : s.hasTransfer m = true)
    (hbus : s.busError .store (a.address m s) m.bytes = false) :
    exec (storeForm m d a) s
      = .next (s.afterTransfer (a.indexFile m s)
          (s.memWrite (a.address m s) m.bytes (s.readGpr d m.width).toNat).mem s.reservation) := by
  have hwork : stored m d a s = _ :=
    a.updateIndex_eq h.1 (s.memWrite (a.address m s) m.bytes (s.readGpr d m.width).toNat).mem s.reservation
  have ⟨_, hstore, _, _⟩ := exec_memoryForms s m d a
  rw [hstore, runStore, h.memory_guarded hmode, hbus, hwork]
  rfl

/-- A store-conditional that is not refused: it stores where the reservation is over its address and width (R177). -/
theorem exec_storeCond_allowed (h : GprReady s m.width (d :: a.registers)) (hmode : s.hasTransfer m = true)
    (hbus : s.reservation = some (a.address m s, m.bytes) → s.busError .store (a.address m s) m.bytes = false) :
    exec (storeCondForm m d a) s
      = .next (s.afterTransfer
          (writeFile (a.indexFile m s) s.vw d
            (if s.reservation = some (a.address m s, m.bytes) then 1#m.width else 0#m.width))
          (if s.reservation = some (a.address m s, m.bytes)
            then (s.memWrite (a.address m s) m.bytes (s.readGpr d m.width).toNat).mem else s.mem) none) := by
  have ⟨_, _, _, hstoreCond⟩ := exec_memoryForms s m d a
  rw [hstoreCond, runStoreConditional, h.memory_guarded hmode]
  by_cases hr : s.reservation = some (a.address m s, m.bytes)
  · have hholds : reservationHolds m a s = true := beq_iff_eq.2 hr
    have hwork : conditionallyStored m d a s = ({ s with
        mem := (s.memWrite (a.address m s) m.bytes (s.readGpr d m.width).toNat).mem, reservation := none } :
          State).withGpr (writeFile (a.indexFile m s) s.vw d 1#m.width) := by
      rw [conditionallyStored, hholds]
      exact writeGpr_updateIndex h.1 _ none _
    rw [if_pos hr, if_pos hr, hholds, hbus hr, hwork]
    rfl
  · have hholds : reservationHolds m a s = false := beq_eq_false_iff_ne.2 hr
    have hwork : conditionallyStored m d a s = ({ s with mem := s.mem, reservation := none } : State).withGpr
        (writeFile (a.indexFile m s) s.vw d 0#m.width) := by
      rw [conditionallyStored, hholds]
      exact writeGpr_updateIndex h.1 s.mem none _
    rw [if_neg hr, if_neg hr, hholds, hwork]
    rfl

end

/-- Settles O36: the index register is written before the destination, in the file that the update left. -/
theorem loadsComplete : Obligations.LoadsComplete := by
  intro locked m d a s h hmode hbus
  have ⟨hbank, _, hparts, hregs⟩ := h
  have hindex : IndexUpdated a m s (a.indexFile m s) := Addressing.indexUpdated h.address
  refine ⟨a.address_eq m s, _, a.indexFile m s, exec_load_allowed locked h hmode hbus, hindex, ?_,
    State.afterTransfer_frame hbank _ _ _, State.afterTransfer_completed _ _ _⟩
  rw [State.afterTransfer_gpr hbank]
  exact fileUpdated_gpr hindex.length _ (hregs d List.mem_cons_self) hparts

/-- Settles O37: the store is made before the index update, which writes no memory. -/
theorem storesComplete : Obligations.StoresComplete := by
  intro m d a s h hmode hbus
  refine ⟨a.address_eq m s, _, exec_store_allowed h hmode hbus, ?_, State.afterTransfer_frame h.1 _ _ _, fun x hx => ?_,
    State.afterTransfer_completed _ _ _⟩
  · rw [State.afterTransfer_gpr h.1]
    exact Addressing.indexUpdated h.address
  · rw [State.afterTransfer_mem]
    exact Memory.byteAt_writeBytes_of_not_inBytes _ _ hx

/-- Settles O38: the reservation decides on the store and on the value in the destination. -/
theorem storeConditionalsComplete : Obligations.StoreConditionalsComplete := by
  intro m d a s h hmode hbus
  have ⟨hbank, _, hparts, hregs⟩ := h
  have hindex : IndexUpdated a m s (a.indexFile m s) := Addressing.indexUpdated h.address
  refine ⟨_, a.indexFile m s, exec_storeCond_allowed h hmode hbus, hindex, ?_, State.afterTransfer_frame hbank _ _ _,
    fun x hx => ?_, State.afterTransfer_completed _ _ _⟩
  · rw [State.afterTransfer_gpr hbank]
    exact fileUpdated_gpr hindex.length _ (hregs d List.mem_cons_self) hparts
  · rw [State.afterTransfer_mem]
    split
    · exact Memory.byteAt_writeBytes_of_not_inBytes _ _ hx
    · rfl

/-! ### Refused transfers -/

/-- A refused transfer writes what D SYSTEM BUS ERROR writes and no more (R178, R419). -/
theorem State.dataBusError_frame (s : State) :
    s.dataBusError = { s with
      ic := s.icNext, exc := s.dataBusError.exc, exi := s.ir, lastWord := s.ir, errorLine := true,
      debugDue := s.dataBusError.debugDue } := by
  unfold State.dataBusError State.retire
  split <;> rfl

theorem State.dataBusError_completed (s : State) : Completed s s.dataBusError [.dSystemBusError] :=
  State.retire_completed s { s with errorLine := true, ic := s.icNext } [.dSystemBusError] rfl rfl rfl rfl

/-- Settles O30: each memory transfer, its checks passed, comes to D SYSTEM BUS ERROR alone. -/
theorem dataBusErrorWritesNothing : Obligations.DataBusErrorWritesNothing := by
  intro s m d ad h hmode
  have raised {i : Instr} (hi : exec i s = .next s.dataBusError) : ∃ t, exec i s = .next t
      ∧ t = { s with
          ic := s.icNext, exc := t.exc, exi := s.ir, lastWord := s.ir, errorLine := true, debugDue := t.debugDue }
      ∧ Completed s t [.dSystemBusError] :=
    ⟨_, hi, s.dataBusError_frame, s.dataBusError_completed⟩
  obtain ⟨hload, hstore, hlocked, hstoreCond⟩ := exec_memoryForms s m d ad
  refine ⟨fun hbus => ⟨raised ?_, raised ?_⟩, fun hbus => ⟨raised ?_, fun hr => raised ?_⟩⟩
  · rw [hload, runLoad, h.memory_guarded hmode, if_pos hbus]
  · rw [hlocked, runLoadLocked, h.memory_guarded hmode, if_pos hbus]
  · rw [hstore, runStore, h.memory_guarded hmode, if_pos hbus]
  · have hholds : reservationHolds m ad s = true := beq_iff_eq.2 hr
    rw [hstoreCond, runStoreConditional, h.memory_guarded hmode, hholds, hbus]
    rfl

/-! ### Moves between registers -/

/-- A move into a GPR that writes no other register (R180, R181, R183, R185, R188). -/
theorem State.afterTransfer_movedToGpr {s : State} {w : Nat} {d : Nat} (h : GprReady s w [d]) (v : BitVec w) :
    MovedToGpr s (s.afterTransfer (writeFile s.gpr s.vw d v) s.mem s.reservation) d v := by
  obtain ⟨hbank, -, hparts, hregs⟩ := h
  have hest : (s.afterTransfer (writeFile s.gpr s.vw d v) s.mem s.reservation).est = s.est := by
    simp [State.afterTransfer]
  refine ⟨?_, hest, ?_, State.afterTransfer_completed _ _ _⟩
  · rw [OnlyGprs, hest]
    exact State.afterTransfer_frame hbank _ _ _
  · rw [State.afterTransfer_gpr hbank]
    exact fileUpdated_gpr rfl v (hregs d List.mem_cons_self) hparts

/-- The checks of a move between registers that are there, in files large enough (R173). -/
theorem firstHit_moveChecks_eq_none {s : State} {m : MMode} {dst src : List RegBits} {dstVw srcVw d x : Nat}
    (hmode : s.hasTransfer m = true) (hlacks : s.lacks = false) (hd : d < dst.length) (hx : x < src.length)
    (hdst : partsNeeded dstVw m.width ≤ dst.length) (hsrc : partsNeeded srcVw m.width ≤ src.length) :
    firstHit (s.moveChecks m dst dstVw d src srcVw x) = none := by
  rw [State.moveChecks,
    firstHit_cons_of_false _ _ (by
      simp [hmode, hlacks, (accessFits_eq_true ..).2 (.inr hdst), (accessFits_eq_true ..).2 (.inr hsrc)]),
    firstHit_cons_of_false _ _ (by simp [missing, hd, hx])]
  rfl

section
variable {s : State} (dsp fpr : List RegBits)

/-- The state a move to a DSP register or an FPR completes with. -/
def State.afterUnitMove (s : State) (dsp fpr : List RegBits) : State :=
  ({ s with dsp := dsp, fpr := fpr } : State).advance.retire s

@[simp] theorem State.afterUnitMove_dsp : (s.afterUnitMove dsp fpr).dsp = dsp := by simp [State.afterUnitMove]
@[simp] theorem State.afterUnitMove_fpr : (s.afterUnitMove dsp fpr).fpr = fpr := by simp [State.afterUnitMove]

/-- It changes the two files and what completing writes. -/
theorem State.afterUnitMove_frame :
    s.afterUnitMove dsp fpr = { s with
      dsp := (s.afterUnitMove dsp fpr).dsp, fpr := (s.afterUnitMove dsp fpr).fpr, ic := s.icNext,
      exc := (s.afterUnitMove dsp fpr).exc, exi := (s.afterUnitMove dsp fpr).exi,
      lastWord := (s.afterUnitMove dsp fpr).lastWord, debugDue := (s.afterUnitMove dsp fpr).debugDue } := by
  rw [State.afterUnitMove_dsp, State.afterUnitMove_fpr]
  exact State.retire_frame _ _

theorem State.afterUnitMove_completed : Completed s (s.afterUnitMove dsp fpr) [] :=
  State.retire_completed s ({ s with dsp := dsp, fpr := fpr } : State).advance [] rfl rfl rfl rfl

end

theorem MMode.width_bounds (m : MMode) : 0 < m.width ∧ m.width ≤ 1024 := by cases m <;> decide

/-- The range of FPR_WIDTH (log 41). -/
theorem Config.fprWidth_bounds {c : Config} (h : c.inRange = true) (hfpr : c.hasFpr = true) :
    8 ≤ c.fprWidth ∧ c.fprWidth ≤ 1024 := by
  simp only [Config.inRange, Bool.and_eq_true, decide_eq_true_eq] at h
  tauto

/-- Settles O39: each move opens with checks that pass, and then writes one file. -/
theorem registerMovesComplete : Obligations.RegisterMovesComplete := by
  intro m u d x imm s hrange hmode
  refine ⟨fun h => ?toGpr, fun h => ?fromGpr⟩
  case toGpr =>
    have ⟨_, hlacks, hparts, hregs⟩ := h
    have hd : d < s.gpr.length := hregs d List.mem_cons_self
    have moved {src : List RegBits} {srcVw : Nat} {i : Instr} (v : BitVec m.width) (hx : x < src.length)
        (hsrc : partsNeeded srcVw m.width ≤ src.length)
        (hi : exec i s = .next (s.guarded false (s.moveChecks m s.gpr s.vw d src srcVw x)
          ((s.writeGpr d v).advance.retire s))) : ∃ t, exec i s = .next t ∧ MovedToGpr s t d v := by
      rw [s.guarded_of_none _ _ _ (firstHit_moveChecks_eq_none hmode hlacks hd hx hparts hsrc)] at hi
      exact ⟨_, hi, State.afterTransfer_movedToGpr h v⟩
    refine ⟨fun hx => moved _ hx hparts rfl, fun hx hsrc => moved _ hx hsrc rfl, fun hx hsrc => moved _ hx hsrc rfl,
      fun hx hsrc => moved _ hx hsrc rfl, ?imm⟩
    case imm =>
      have hi : exec (.loadImm m u d imm) s = .next (s.guarded false (s.gprChecks (s.hasTransfer m) m.width [d])
          ((s.writeGpr d (extendImm u imm m.width)).advance.retire s)) := rfl
      rw [s.guarded_of_none _ _ _ (h.firstHit_gprChecks_eq_none hmode)] at hi
      exact ⟨_, hi, State.afterTransfer_movedToGpr h _⟩
  case fromGpr =>
    obtain ⟨-, hlacks, hparts, hregs⟩ := h
    have hx : x < s.gpr.length := hregs x List.mem_cons_self
    have checks {dst : List RegBits} {dstVw : Nat} (hd : d < dst.length)
        (hdst : partsNeeded dstVw m.width ≤ dst.length) :
        firstHit (s.moveChecks m dst dstVw d s.gpr s.vw x) = none :=
      firstHit_moveChecks_eq_none hmode hlacks hd hx hdst hparts
    refine ⟨fun hd hdst => ?dsp, fun hfpr hd hdst => ?fpr⟩
    case dsp =>
      have hi : exec (.movDspReg m d x) s
          = .next (s.guarded false _ (s.afterUnitMove (writeFile s.dsp s.dspWidth d (s.readGpr x m.width)) s.fpr)) :=
        rfl
      rw [s.guarded_of_none _ _ _ (checks hd hdst)] at hi
      refine ⟨_, hi, State.afterUnitMove_frame _ _, by simp, State.afterUnitMove_completed _ _, ?_⟩
      rw [State.afterUnitMove_dsp]
      exact fileWriteIsBitwise _ _ _ _ _ (MMode.width_bounds _).1 (MMode.width_bounds _).2
        (List.ne_nil_of_length_pos (by omega)) hdst
    case fpr =>
      have hi : exec (.movFprReg m d x) s
          = .next (s.guarded false _
              (s.afterUnitMove s.dsp (writeFile s.fpr s.cfg.fprWidth d (s.readGpr x m.width)))) := rfl
      rw [s.guarded_of_none _ _ _ (checks hd hdst)] at hi
      refine ⟨_, hi, State.afterUnitMove_frame _ _, by simp, State.afterUnitMove_completed _ _, ?_⟩
      rw [State.afterUnitMove_fpr]
      obtain ⟨hmin, hmax⟩ := Config.fprWidth_bounds hrange hfpr
      exact fileWriteIsBitwise _ _ _ _ _ (by omega) hmax (List.ne_nil_of_length_pos (by omega)) hdst

end Sys2Proof.Machine
end

section
/-! PROOFS. A MOV to the special register file completes (R182): what its checks let pass, what the write leaves in the
file, and what completing adds. -/
namespace Sys2Proof.Machine

/-! ### The checks (R173, R409) -/

theorem firstHit_append_eq_none (checks rest : List (Bool × Exc)) :
    firstHit (checks ++ rest) = none ↔ firstHit checks = none ∧ firstHit rest = none := by
  simp only [firstHit_none, List.forall_mem_append]

theorem firstHit_singleton_eq_none (c : Bool) (e : Exc) : firstHit [(c, e)] = none ↔ c = false := by
  simp [firstHit_none]

/-- Where every entry touched may be written in the mode, the move's own checks pass and the bank exists, no check of
a MOV to the special register file holds, in either order of the bank check (log 12). -/
theorem State.firstHit_specialWriteChecks_eq_none {s after : State} {m : MMode} {d x : Nat}
    (hmove : firstHit (s.moveChecks m s.spcFile s.cfg.spcWidth d s.gpr s.vw x) = none)
    (huser : s.systemMode = true ∨ (s.touchedEntries d m.width).any (userReadOnly s.cfg) = false)
    (hsystem : (s.touchedEntries d m.width).any (systemReadOnly s.cfg) = false)
    (hbank : after.bank < s.banks.length) : firstHit (s.specialWriteChecks m d x after) = none := by
  have hfirst : (!s.systemMode && !missing s.spcFile d && (s.touchedEntries d m.width).any (userReadOnly s.cfg))
      = false := by
    rcases huser with h | h <;> simp [h]
  have hbankCheck : (after.bank != s.bank && decide (s.banks.length ≤ after.bank) && !missing s.spcFile d
      && !missing s.gpr x) = false := by
    simp [hbank.not_ge]
  unfold State.specialWriteChecks
  split <;> simp only [firstHit_append_eq_none, firstHit_singleton_eq_none] <;> tauto

/-- The entries a write touches (R25, R32). -/
theorem State.touchedEntries_contains (s : State) (d w n : Nat) :
    (s.touchedEntries d w).contains n = true
      ↔ ∃ j, j < partsNeeded s.cfg.spcWidth w ∧ (d + j) % s.spcFile.length = n := by
  simp [State.touchedEntries]

theorem userReadOnly_eq_false {c : Config} {n : Nat} (hn : 20 ≤ n)
    (hown : 27 ≤ n → n ∉ c.spcReadOnly ∧ n ∉ c.spcUserReadOnly) : userReadOnly c n = false := by
  have hlow : ¬n ≤ 19 := by omega
  simpa [userReadOnly, hlow, and_comm] using hown

theorem systemReadOnly_eq_false {c : Config} {n : Nat} (hn : 2 ≤ n) (hown : 27 ≤ n → n ∉ c.spcReadOnly) :
    systemReadOnly c n = false := by
  have hlow : ¬n ≤ 1 := by omega
  simpa [systemReadOnly, hlow] using hown

/-! ### The write -/

/-- The special registers that a write of the file puts in the state as they stand in it: all but EXI, EXC, EXM and the
implementation's own. -/
def State.plainEntries (s : State) :=
  (s.est, s.etb, s.itb, s.cid, s.pid, s.scr, s.nrp, s.erp, s.ucr, s.crp, s.irp, s.dcr)

/-- Entry `27 + k` is the implementation's own register `k` (R57). -/
theorem getD_spcExtra_withSpcFile (s : State) (f : List RegBits) (k : Nat) :
    (s.withSpcFile f).spcExtra.getD k 0 = entryWord f (27 + k) := by
  rw [State.withSpcFile_spcExtra, entryWord, List.getD_eq_getElem?_getD, List.getD_eq_getElem?_getD, List.getElem?_map,
    List.getElem?_drop]
  cases f[27 + k]? with
  | none => rw [Option.map_none, Option.getD_none, Option.getD_none, BitVec.ofNat_eq_ofNat, BitVec.ofNat_eq_ofNat,
      BitVec.toNat_zero]
  | some r => rfl

section
variable (touched : List Nat) (t : State)

/-- A write to PROCESS ID goes to instruction 0, any other on (R47, R182). -/
theorem specialWritten_ic :
    (specialWritten touched t).ic = if touched.contains 13 || touched.contains 14 then 0 else t.icNext := by
  unfold specialWritten
  dsimp only
  split <;> split <;> rfl

/-- EXM[0] stays 0 (R43). -/
theorem specialWritten_exm :
    (specialWritten touched t).exm = if touched.contains 6 then t.exm &&& ~~~1#64 else t.exm := by
  unfold specialWritten
  dsimp only
  split <;> split <;> rfl

@[simp] theorem specialWritten_exc : (specialWritten touched t).exc = t.exc := by rw [specialWritten_frame]
@[simp] theorem specialWritten_exi : (specialWritten touched t).exi = t.exi := by rw [specialWritten_frame]
@[simp] theorem specialWritten_ir : (specialWritten touched t).ir = t.ir := by rw [specialWritten_frame]
@[simp] theorem specialWritten_debugDue : (specialWritten touched t).debugDue = t.debugDue := by
  rw [specialWritten_frame]
@[simp] theorem specialWritten_spcExtra : (specialWritten touched t).spcExtra = t.spcExtra := by
  rw [specialWritten_frame]
@[simp] theorem specialWritten_plainEntries : (specialWritten touched t).plainEntries = t.plainEntries := by
  rw [specialWritten_frame]
  rfl

end

theorem getLsbD_and_not_one (v : DWord) (n : Nat) :
    (v &&& ~~~1#64).getLsbD n = (v.getLsbD n && decide (n ≠ 0)) := by
  rcases Nat.lt_or_ge n 64 with hn | hn
  · rw [BitVec.getLsbD_and, BitVec.getLsbD_not, BitVec.getLsbD_one, decide_eq_true hn, Bool.true_and]
    simp
  · rw [BitVec.getLsbD_of_ge _ _ hn, BitVec.getLsbD_of_ge _ _ hn, Bool.false_and]

/-! ### Completing -/

@[simp] theorem State.retire_plainEntries (s u : State) : (u.retire s).plainEntries = u.plainEntries := by
  simp [State.plainEntries]

/-- What completing adds to EXC, EXI and the debug entry in debug mode, and does not touch out of it (R412, R482). -/
theorem State.retire_debug (s u : State) (hir : u.ir = s.ir) (hdue : u.debugDue = s.debugDue) :
    ExcMarked u.exc (u.retire s).exc (if (u.retire s).debugMode then [.debugMode] else [])
      ∧ (u.retire s).exi = (if (u.retire s).debugMode then s.ir else u.exi)
      ∧ (u.retire s).debugDue
        = (if (u.retire s).debugMode then s.exceptionsEnabled && !s.exm.getLsbD 1 else s.debugDue) := by
  have hmode : (u.retire s).debugMode = u.debugMode := by simp [State.debugMode]
  rw [hmode, State.retire_exc, State.retire_exi, State.retire_debugDue, hir, hdue]
  refine ⟨fun n => ?_, rfl, rfl⟩
  cases u.debugMode <;> simp [Exc.getLsbD_bit]

/-- The state a MOV to the special register file completes with, where the write touches these entries and leaves this
file. -/
def State.afterSpecialMove (s : State) (touched : List Nat) (f : List RegBits) : State :=
  (specialWritten touched (s.withSpcFile f)).retire s

section
variable (s : State) (touched : List Nat) (f : List RegBits)

theorem State.afterSpecialMove_ic :
    (s.afterSpecialMove touched f).ic = if touched.contains 13 || touched.contains 14 then 0 else s.icNext := by
  rw [State.afterSpecialMove, State.retire_ic, specialWritten_ic]
  rfl

theorem State.afterSpecialMove_plainEntries :
    (s.afterSpecialMove touched f).plainEntries = (s.withSpcFile f).plainEntries := by
  simp [State.afterSpecialMove]

theorem State.afterSpecialMove_spcExtra : (s.afterSpecialMove touched f).spcExtra = (s.withSpcFile f).spcExtra := by
  rw [State.afterSpecialMove, State.retire_spcExtra, specialWritten_spcExtra]

theorem State.afterSpecialMove_exm_getLsbD (n : Nat) :
    (s.afterSpecialMove touched f).exm.getLsbD n
      = if touched.contains 6 = true ∧ n = 0 then false else (entryPair f 6).getLsbD n := by
  rw [State.afterSpecialMove, State.retire_exm, specialWritten_exm, State.withSpcFile_exm]
  cases touched.contains 6 with
  | false => simp
  | true =>
    rw [if_pos rfl, getLsbD_and_not_one]
    by_cases hn : n = 0 <;> simp [hn]

/-- EXC and EXI as the write leaves them, with what debug mode as the write leaves it adds. -/
theorem State.afterSpecialMove_debug :
    ExcMarked (entryPair f 4) (s.afterSpecialMove touched f).exc
        (if (s.afterSpecialMove touched f).debugMode then [.debugMode] else [])
      ∧ (s.afterSpecialMove touched f).exi = (if (s.afterSpecialMove touched f).debugMode then s.ir else entryWord f 3)
      ∧ (s.afterSpecialMove touched f).debugDue
        = (if (s.afterSpecialMove touched f).debugMode then s.exceptionsEnabled && !s.exm.getLsbD 1
            else s.debugDue) := by
  have hdebug := s.retire_debug (specialWritten touched (s.withSpcFile f)) (by simp) (by simp)
  rwa [specialWritten_exc, specialWritten_exi] at hdebug

/-- It changes the special registers, IC and what completing writes. -/
theorem State.afterSpecialMove_frame :
    let t := s.afterSpecialMove touched f
    t = { s with
      ic := t.ic, est := t.est, exi := t.exi, exc := t.exc, exm := t.exm, etb := t.etb, itb := t.itb, cid := t.cid,
      pid := t.pid, scr := t.scr, nrp := t.nrp, erp := t.erp, ucr := t.ucr, crp := t.crp, irp := t.irp, dcr := t.dcr,
      spcExtra := t.spcExtra, lastWord := s.ir, debugDue := t.debugDue } := by
  dsimp only
  rw [State.afterSpecialMove, specialWritten_frame]
  unfold State.retire
  split <;> rfl

end

/-- SPC_WIDTH is 32 (R10, log 6). -/
theorem Config.spcWidth_eq {c : Config} (h : c.inRange = true) : c.spcWidth = 32 := by
  simp only [Config.inRange, Bool.and_eq_true, decide_eq_true_eq] at h
  tauto

/-- The special registers a write of their file leaves are those of the file written (R25, R30). -/
theorem State.writeSpc_eq {s : State} (hrange : s.cfg.inRange = true) (n : Nat) {w : Nat} (v : BitVec w) :
    s.writeSpc n v = s.withSpcFile (writeFile s.spcFile 32 n v) := by
  rw [State.writeSpc, Config.spcWidth_eq hrange]

/-- A MOV to the special register file that every check lets pass does its work. The rights are those of every entry
touched (R32, R182, log 13). -/
theorem exec_movSpcReg_of_writable {s : State} {m : MMode} {d x : Nat} (hrange : s.cfg.inRange = true)
    (hlacks : s.lacks = false) (hmode : s.hasTransfer m = true) (hx : x < s.gpr.length) (hd : d < s.spcFile.length)
    (hgprParts : partsNeeded s.vw m.width ≤ s.gpr.length) (hparts : partsNeeded 32 m.width ≤ s.spcFile.length)
    (hrights : ∀ j, j < partsNeeded 32 m.width → (if s.systemMode then 2 else 20) ≤ (d + j) % s.spcFile.length
      ∧ (27 ≤ (d + j) % s.spcFile.length → (d + j) % s.spcFile.length ∉ s.cfg.spcReadOnly
        ∧ (s.systemMode = false → (d + j) % s.spcFile.length ∉ s.cfg.spcUserReadOnly)))
    (hbank : (s.writeSpc d (s.readGpr x m.width)).bank < s.banks.length) :
    exec (.movSpcReg m d x) s
      = .next (s.afterSpecialMove (s.touchedEntries d m.width) (writeFile s.spcFile 32 d (s.readGpr x m.width))) := by
  rw [← Config.spcWidth_eq hrange] at hparts hrights
  have hmove := firstHit_moveChecks_eq_none hmode hlacks hd hx hparts hgprParts
  have huser : s.systemMode = true ∨ (s.touchedEntries d m.width).any (userReadOnly s.cfg) = false := by
    refine s.systemMode.eq_false_or_eq_true.imp_right fun hsys => ?_
    refine (s.touchedEntries_any_eq_false ..).2 fun j hj => ?_
    obtain ⟨hlow, hown⟩ := hrights j hj
    rw [hsys, if_neg nofun] at hlow
    exact userReadOnly_eq_false hlow fun hn => (hown hn).imp_right fun h => h hsys
  have hsystem : (s.touchedEntries d m.width).any (systemReadOnly s.cfg) = false := by
    refine (s.touchedEntries_any_eq_false ..).2 fun j hj => ?_
    obtain ⟨hlow, hown⟩ := hrights j hj
    exact systemReadOnly_eq_false (by split at hlow <;> omega) fun hn => (hown hn).1
  rw [State.afterSpecialMove, ← State.writeSpc_eq hrange]
  exact congrArg _ (s.guarded_of_none _ _ _ (State.firstHit_specialWriteChecks_eq_none hmove huser hsystem hbank))

/-- Settles O40: the checks pass, the file takes the value, and completing adds what debug mode raises. -/
theorem moveToSpecialRegisterCompletes : Obligations.MoveToSpecialRegisterCompletes := by
  intro m d x s hrange ⟨_, hlacks, hgprParts, hregs⟩ hmode hparts hd hrights hbank
  have htouches (n : Nat) : (s.touchedEntries d m.width).contains n = true
      ↔ ∃ j, j < partsNeeded 32 m.width ∧ (d + j) % s.spcFile.length = n := by
    rw [s.touchedEntries_contains, Config.spcWidth_eq hrange]
  have hexec := exec_movSpcReg_of_writable hrange hlacks hmode (hregs x List.mem_cons_self) hd hgprParts hparts
    hrights hbank
  have hfile : FileUpdated s.spcFile _ 32 d (s.readGpr x m.width) :=
    fileWriteIsBitwise s.spcFile 32 d m.width (s.readGpr x m.width) (by omega) (by omega)
      (List.ne_nil_of_length_pos (by omega)) hparts
  have hmask := State.getLsbD_zero_exm_writeSpc (s := s) d (s.readGpr x m.width)
  have hextra := s.length_spcExtra_writeSpc d (s.readGpr x m.width)
  rw [State.writeSpc_eq hrange] at hmask hextra
  generalize writeFile s.spcFile 32 d (s.readGpr x m.width) = f at hexec hmask hextra hfile
  have hentries := s.afterSpecialMove_plainEntries (s.touchedEntries d m.width) f
  simp only [State.plainEntries, Prod.mk.injEq] at hentries
  obtain ⟨hest, hetb, hitb, hcid, hpid, hscr, hnrp, herp, hucr, hcrp, hirp, hdcr⟩ := hentries
  obtain ⟨hexc, hexi, hdue⟩ := s.afterSpecialMove_debug (s.touchedEntries d m.width) f
  refine ⟨_, _, hexec, hfile, fun h => ?ic0, fun h => ?icNext, hest, hetb, hitb, hcid, hpid, hscr, hnrp, herp, hucr,
    hcrp, hirp, hdcr, ?extra, fun k => ?own, fun n hn => ?exm, fun h => ?touched, fun h => ?kept, hexc, hexi, hdue,
    s.afterSpecialMove_frame _ _⟩
  case ic0 =>
    simp only [← htouches, ← Bool.or_eq_true] at h
    rw [State.afterSpecialMove_ic, if_pos h]
  case icNext =>
    simp only [← htouches, ← Bool.or_eq_true] at h
    rw [State.afterSpecialMove_ic, if_neg h]
  case extra => rw [State.afterSpecialMove_spcExtra, hextra]
  case own => rw [State.afterSpecialMove_spcExtra, getD_spcExtra_withSpcFile]
  case exm => rw [State.afterSpecialMove_exm_getLsbD, if_neg fun h => hn h.2]
  case touched => rw [State.afterSpecialMove_exm_getLsbD, if_pos ⟨(htouches 6).2 h, rfl⟩]
  case kept =>
    have hsix := (htouches 6).not.2 h
    rw [State.afterSpecialMove_exm_getLsbD, if_neg fun h => hsix h.1]
    exact hmask (by simpa using hsix)

end Sys2Proof.Machine
end

section
/-! PROOFS. An arithmetic/logic instruction at its end: where an exception it raised is potent it traps, else its results
stand in the GPR file in use and its flags in EST (R205, R213, R406, R408). -/
namespace Sys2Proof.Machine

/-! ### Trapping -/

/-- The instruction traps with these exceptions and writes nothing else (R406). -/
def Traps (s : State) (i : Instr) (raised : List Exc) : Prop := ∃ t, exec i s = .next t ∧ Trapped s t raised

/-- Where an exception it raised is potent, an instruction whose checks pass traps with all it raised (R213, R290). -/
theorem traps_of_potent {s : State} {i : Instr} {arithmetic : Bool} {checks : List (Bool × Exc)} {raised : List Exc}
    {flags : BitVec 16} {written : State}
    (hexec : exec i s = .next (s.guarded arithmetic checks (s.complete raised flags written)))
    (hchecks : firstHit checks = none) (hpotent : ∃ e ∈ raised, s.potent e = true) : Traps s i raised := by
  have hraised : raised ≠ [] := by
    rintro rfl
    simp at hpotent
  rw [s.guarded_of_none _ _ _ hchecks, State.complete, if_pos (List.any_eq_true.2 hpotent)] at hexec
  exact ⟨_, hexec, s.abort_trapped raised hraised⟩

/-! ### Completing -/

section
variable {s : State} (raised : List Exc) (flags : BitVec 16) (f : List RegBits)

/-- The state an arithmetic/logic instruction completes with, where it leaves this GPR file. -/
def State.afterResult (s : State) (raised : List Exc) (flags : BitVec 16) (f : List RegBits) : State :=
  (({ s.withGpr f with est := withFlags s.est flags, ic := s.icNext } : State).mark raised).retire s

/-- An instruction none of whose exceptions is potent completes (R408). -/
theorem State.complete_withGpr {raised : List Exc} (h : NonePotent s raised) :
    s.complete raised flags (s.withGpr f) = s.afterResult raised flags f := by
  have hnone : ¬raised.any s.potent = true := by simpa [NonePotent] using h
  rw [State.complete, if_neg hnone]
  cases raised <;> rfl

theorem State.afterResult_gpr (hbank : s.bank < s.banks.length) : (s.afterResult raised flags f).gpr = f := by
  have hsame : (s.afterResult raised flags f).bank = s.bank := by simp [State.afterResult, State.bank]
  have hbanks : (s.afterResult raised flags f).banks = s.banks.set s.bank f := by simp [State.afterResult]
  rw [State.gpr, hsame, hbanks, List.getD_eq_getElem?_getD, List.getElem?_set_self hbank, Option.getD_some]

/-- It changes the GPR file in use, EST, and what completing writes. -/
theorem State.afterResult_onlyGprs (hbank : s.bank < s.banks.length) : OnlyGprs s (s.afterResult raised flags f) := by
  have hest : (s.afterResult raised flags f).est = withFlags s.est flags := by simp [State.afterResult]
  rw [OnlyGprs, State.afterResult_gpr raised flags f hbank, hest]
  cases raised <;> exact State.retire_frame _ _

theorem State.afterResult_completed : Completed s (s.afterResult raised flags f) raised :=
  State.retire_completed s { s.withGpr f with est := withFlags s.est flags, ic := s.icNext } raised rfl rfl rfl rfl

theorem State.afterResult_estIs : EstIs s.est (s.afterResult raised flags f).est flags.getLsbD := by
  intro n
  simp [State.afterResult, withFlags_getLsbD]

end

/-- An instruction with a GPR result completes where its checks pass and no exception it raised is potent (R205, R233,
R408). -/
theorem intDone_of_guarded {s : State} {i : Instr} {arithmetic : Bool} {checks : List (Bool × Exc)} {w d : Nat}
    {regs : List Nat} {raised : List Exc} {flags : BitVec 16} {res : BitVec w}
    (hexec : exec i s = .next (s.guarded arithmetic checks (s.complete raised flags (s.writeGpr d res))))
    (hchecks : firstHit checks = none) (hready : GprReady s w (d :: regs)) (hnone : NonePotent s raised) :
    ∃ t, exec i s = .next t ∧ IntDone s t d res raised flags.getLsbD := by
  obtain ⟨hbank, -, hparts, hregs⟩ := hready
  rw [s.guarded_of_none _ _ _ hchecks, State.writeGpr, State.complete_withGpr flags _ hnone] at hexec
  refine ⟨_, hexec, State.afterResult_onlyGprs raised flags _ hbank, ?_, State.afterResult_completed raised flags _,
    State.afterResult_estIs raised flags _⟩
  rw [State.afterResult_gpr raised flags _ hbank]
  exact fileUpdated_gpr rfl res (hregs d List.mem_cons_self) hparts

/-- The flags of IntEST, bit by bit (R205). -/
theorem getLsbD_intFlags (u : Bool) {w rw : Nat} (op1 op2 : BitVec w) (res : BitVec rw) (ov dz : Bool) :
    (intFlags u op1 op2 res ov dz).getLsbD
      = intBits (intValue u op1) (intValue u op2) res.msb (decide (res = 0)) ov dz := by
  funext n
  rw [intFlags, EstFlags.getLsbD_bits]
  rcases Nat.lt_or_ge n 16 with hn | hn
  · interval_cases n <;> rfl
  · obtain ⟨k, rfl⟩ := Nat.exists_eq_add_of_le' hn
    rfl

end Sys2Proof.Machine
end

section
/-! PROOFS. The integer arithmetic instructions complete (R203 to R215, R331 to R336): their exact results, which mode
holds them, and what they write. -/
namespace Sys2Proof.Machine

/-! ### The range of a mode (R15, R203) -/

theorem representable_true_iff (w : Nat) (r : Int) : representable true w r = true ↔ 0 ≤ r ∧ r ≤ 2 ^ w - 1 := by
  simp [representable]

theorem representable_false_iff (w : Nat) (r : Int) :
    representable false w r = true ↔ -2 ^ (w - 1) ≤ r ∧ r ≤ 2 ^ (w - 1) - 1 := by
  simp [representable]

theorem representable_iff (u : Bool) (w : Nat) (r : Int) :
    representable u w r = true
      ↔ if u then 0 ≤ r ∧ r ≤ 2 ^ w - 1 else -2 ^ (w - 1) ≤ r ∧ r ≤ 2 ^ (w - 1) - 1 := by
  cases u with
  | true => exact representable_true_iff w r
  | false => exact representable_false_iff w r

/-- Every operand of a mode is in its range. -/
theorem representable_intValue (u : Bool) {w : Nat} (v : BitVec w) : representable u w (intValue u v) = true := by
  cases u with
  | true =>
    have hlt : (v.toNat : Int) < 2 ^ w := by exact_mod_cast v.isLt
    exact (representable_true_iff ..).2 ⟨Int.natCast_nonneg _, Int.le_sub_one_of_lt hlt⟩
  | false => exact (representable_false_iff ..).2 ⟨v.le_toInt, Int.le_sub_one_of_lt v.toInt_lt⟩

/-- An integer in the range of a mode is the value of its low bits. -/
theorem intValue_ofInt {u : Bool} {w : Nat} {r : Int} (hw : 0 < w) (h : representable u w r = true) :
    intValue u (BitVec.ofInt w r) = r := by
  cases u with
  | true =>
    obtain ⟨hlow, hhigh⟩ := (representable_true_iff ..).1 h
    rw [intValue, if_pos rfl, BitVec.toNat_ofInt, Int.toNat_of_nonneg (Int.emod_nonneg _ (by positivity))]
    exact Int.emod_eq_of_lt hlow (by push_cast; omega)
  | false =>
    obtain ⟨hlow, hhigh⟩ := (representable_false_iff ..).1 h
    exact BitVec.toInt_ofInt_eq_self hw hlow (by omega)

/-- A product and a sum of operands is in the range of twice their width. -/
theorem representable_mul_add {u : Bool} {w : Nat} {a b c : Int} (hw : 0 < w) (ha : representable u w a = true)
    (hb : representable u w b = true) (hc : representable u w c = true) :
    representable u (2 * w) (a * b + c) = true := by
  cases u with
  | true =>
    rw [representable_true_iff] at ha hb hc ⊢
    have hsquare : (2 : Int) ^ (2 * w) = 2 ^ w * 2 ^ w := by rw [two_mul, pow_add]
    have hprod : a * b ≤ (2 ^ w - 1) * (2 ^ w - 1) := mul_le_mul ha.2 hb.2 hb.1 (ha.1.trans ha.2)
    have hnonneg : 0 ≤ a * b := mul_nonneg ha.1 hb.1
    rw [hsquare]
    constructor <;> linarith
  | false =>
    rw [representable_false_iff] at ha hb hc ⊢
    have hsquare : (2 : Int) ^ (2 * w - 1) = 2 * (2 ^ (w - 1) * 2 ^ (w - 1)) := by
      rw [← pow_add, ← pow_succ']
      congr 1
      omega
    have hone : (1 : Int) ≤ 2 ^ (w - 1) := one_le_pow₀ (by norm_num)
    have hle : (2 : Int) ^ (w - 1) ≤ 2 ^ (w - 1) * 2 ^ (w - 1) := le_mul_of_one_le_left (by positivity) hone
    have habs : |a * b| ≤ 2 ^ (w - 1) * 2 ^ (w - 1) := by
      rw [abs_mul]
      exact mul_le_mul (abs_le.2 ⟨ha.1, by omega⟩) (abs_le.2 ⟨hb.1, by omega⟩) (abs_nonneg b) (by positivity)
    obtain ⟨hlow, hhigh⟩ := abs_le.1 habs
    rw [hsquare]
    constructor <;> linarith

/-! ### ADD and SUB (R203 to R206) -/

section
variable (m : MMode) (u : Bool) (d : Nat) (o : Operand2) (s : State)

/-- ADD and SUB do the same work on their exact result, behind the same checks. -/
theorem exec_addSub :
    exec (o.instr (.addReg m u d) (.addImm m u d)) s
        = .next (s.guarded true (s.gprChecks (s.hasMode m) m.width (d :: o.registers))
            (runAddSub m u d (s.readGpr d m.width) (o.value s m u)
              (intValue u (s.readGpr d m.width) + intValue u (o.value s m u)) s))
      ∧ exec (o.instr (.subReg m u d) (.subImm m u d)) s
        = .next (s.guarded true (s.gprChecks (s.hasMode m) m.width (d :: o.registers))
            (runAddSub m u d (s.readGpr d m.width) (o.value s m u)
              (intValue u (s.readGpr d m.width) - intValue u (o.value s m u)) s)) := by
  cases o <;> exact ⟨rfl, rfl⟩

end

section
variable {u : Bool} {w : Nat} {a b : Int}

/-- A sum of unsigned operands is never below the range (R203). -/
theorem representable_add (ha : representable u w a = true) (hb : representable u w b = true) :
    representable u w (a + b)
      = !if u then decide (2 ^ w - 1 < a + b)
          else decide (a + b < -2 ^ (w - 1) ∨ 2 ^ (w - 1) - 1 < a + b) := by
  cases u with
  | true =>
    rw [representable_true_iff] at ha hb
    rw [Bool.eq_iff_iff, representable_true_iff, if_pos rfl, Bool.not_eq_true', decide_eq_false_iff_not]
    omega
  | false =>
    rw [Bool.eq_iff_iff, representable_false_iff, if_neg nofun, Bool.not_eq_true', decide_eq_false_iff_not]
    omega

/-- A difference of unsigned operands is never above it (R204). -/
theorem representable_sub (ha : representable u w a = true) (hb : representable u w b = true) :
    representable u w (a - b)
      = !if u then decide (a - b < 0)
          else decide (a - b < -2 ^ (w - 1) ∨ 2 ^ (w - 1) - 1 < a - b) := by
  cases u with
  | true =>
    rw [representable_true_iff] at ha hb
    rw [Bool.eq_iff_iff, representable_true_iff, if_pos rfl, Bool.not_eq_true', decide_eq_false_iff_not]
    omega
  | false =>
    rw [Bool.eq_iff_iff, representable_false_iff, if_neg nofun, Bool.not_eq_true', decide_eq_false_iff_not]
    omega

end

/-- What ADD and SUB write, where `ov` says that the mode cannot hold the exact result (R206, D22). -/
theorem saturated_of_representable {u : Bool} {w : Nat} {r : Int} {ov : Bool} (hov : representable u w r = !ov) :
    saturated u w r
      = if ov then (if u then BitVec.allOnes w else BitVec.ofNat w (2 ^ (w - 1) - 1)) else BitVec.ofInt w r := by
  rw [saturated, hov]
  cases ov <;> rfl

/-- ADD and SUB complete, where `ov` says the same and an OVERFLOW is impotent. -/
theorem addSub_done {m : MMode} {u : Bool} {d : Nat} {regs : List Nat} {op1 op2 : BitVec m.width} {r : Int} {ov : Bool}
    {s : State} {i : Instr} (hready : GprReady s m.width (d :: regs)) (hmode : s.hasMode m = true)
    (hexec : exec i s = .next (s.guarded true (s.gprChecks (s.hasMode m) m.width (d :: regs))
      (runAddSub m u d op1 op2 r s)))
    (hov : representable u m.width r = !ov) (himpotent : ov = true → s.potent .overflow = false) :
    ∃ t, exec i s = .next t ∧ IntDone s t d (saturated u m.width r) (if ov then [.overflow] else [])
      (intBits (intValue u op1) (intValue u op2) (saturated u m.width r).msb (decide (saturated u m.width r = 0)) ov
        false) := by
  have hraised : (if representable u m.width r then [] else [Exc.overflow]) = if ov then [.overflow] else [] := by
    rw [hov]
    cases ov <;> rfl
  rw [runAddSub, hraised, hov, Bool.not_not] at hexec
  rw [← getLsbD_intFlags]
  refine intDone_of_guarded hexec (hready.firstHit_gprChecks_eq_none hmode) hready ?_
  cases ov with
  | true => simpa [NonePotent] using himpotent
  | false => simp [NonePotent]

/-- Settles O41: what the model asks of a result, that the mode can hold it, is the negation of the overflow. A sum of
unsigned operands is not below the range, and a difference of them not above. -/
theorem addSubComplete : Obligations.AddSubComplete := by
  intro m u d o s hready hmode
  have ha := representable_intValue u (s.readGpr d m.width)
  have hb := representable_intValue u (o.value s m u)
  obtain ⟨hadd, hsub⟩ := exec_addSub m u d o s
  refine ⟨fun himpotent => ?add, fun himpotent => ?sub⟩
  case add =>
    have hrange := representable_add ha hb
    rw [← saturated_of_representable hrange]
    exact addSub_done hready hmode hadd hrange himpotent
  case sub =>
    have hrange := representable_sub ha hb
    rw [← saturated_of_representable hrange]
    exact addSub_done hready hmode hsub hrange himpotent

/-! ### MUL, MAD and MSU (R207, R335, R336) -/

section
variable (m : MMode) (u : Bool) (d r : Nat) (s : State)

/-- MUL does the work of the fused instructions on its product. -/
theorem exec_mul (o : Operand2) :
    exec (o.instr (.mulReg m u d) (.mulImm m u d)) s
      = .next (runFused m u d (d :: o.registers) (s.readGpr d m.width) (o.value s m u)
          (intValue u (s.readGpr d m.width) * intValue u (o.value s m u)) s) := by
  cases o <;> rfl

theorem exec_fused (o : Operand3) :
    exec (o.instr (.madReg m u d r) (.madImm m u d r)) s
        = .next (runFused m u d (d :: r :: o.registers) (s.readGpr d m.width) (s.readGpr r m.width)
            (intValue u (s.readGpr d m.width) * intValue u (s.readGpr r m.width) + intValue u (o.value s m u)) s)
      ∧ exec (o.instr (.msuReg m u d r) (.msuImm m u d r)) s
        = .next (runFused m u d (d :: r :: o.registers) (s.readGpr d m.width) (s.readGpr r m.width)
            (intValue u (s.readGpr d m.width) * intValue u (s.readGpr r m.width) - intValue u (o.value s m u)) s) := by
  cases o <;> exact ⟨rfl, rfl⟩

end

/-- They raise no exception of their own. -/
theorem fused_done {m : MMode} {u : Bool} {d : Nat} {regs : List Nat} {op1 op2 : BitVec m.width} {r : Int} {s : State}
    {i : Instr} (hready : GprReady s (2 * m.width) (d :: regs)) (hmode : s.hasMode m = true)
    (hmul : s.cfg.hasMul = true) (hexec : exec i s = .next (runFused m u d (d :: regs) op1 op2 r s)) :
    ∃ t, exec i s = .next t ∧ IntDone s t d (BitVec.ofInt (2 * m.width) r) []
      (intBits (intValue u op1) (intValue u op2) (BitVec.ofInt (2 * m.width) r).msb
        (decide (BitVec.ofInt (2 * m.width) r = 0)) false false) := by
  rw [← getLsbD_intFlags]
  exact intDone_of_guarded hexec (hready.firstHit_gprChecks_eq_none (by simp [hmode, hmul])) hready nofun

/-- Settles O42: twice the width holds a product of operands, with one more operand added. -/
theorem productsComplete : Obligations.ProductsComplete := by
  intro m u d r o o3 s hmode hmul
  have hw : 0 < m.width := (MMode.width_bounds m).1
  have hvalue (v : BitVec m.width) := representable_intValue u v
  have hzero : representable u m.width 0 = true := by simpa [intValue] using hvalue 0
  refine ⟨fun hready => ⟨fused_done hready hmode hmul (exec_mul m u d s o), ?product⟩, fun hready => ?fused⟩
  case product =>
    have hexact := representable_mul_add hw (hvalue (s.readGpr d m.width)) (hvalue (o.value s m u)) hzero
    rw [add_zero] at hexact
    exact intValue_ofInt (by omega) hexact
  case fused =>
    obtain ⟨hmad, hmsu⟩ := exec_fused m u d r s o3
    exact ⟨fused_done hready hmode hmul hmad, fused_done hready hmode hmul hmsu,
      intValue_ofInt (by omega) (representable_mul_add hw (hvalue _) (hvalue _) (hvalue _))⟩

/-! ### DIV (R208 to R212) -/

/-- DIV does its work behind its checks. -/
theorem exec_div (m : MMode) (u : Bool) (d : Nat) (o : Operand2) (s : State) :
    exec (o.instr (.divReg m u d) (.divImm m u d)) s
      = .next (runDiv m u d (d :: o.registers) (o.value s m u) s) := by
  cases o <;> rfl

/-- The results and the exception of DIV in its three cases: division by zero, the one overflow, and neither. -/
theorem div_cases (u : Bool) (w : Nat) (a b : Int) :
    let dz := decide (b = 0)
    let ov := !u && decide (a = -2 ^ (w - 1) ∧ b = -1)
    divQuotient u w a b = (if dz || ov then maxInt u w else BitVec.ofInt w (a.tdiv b))
      ∧ divRemainder u w a b = (if dz || ov then 0 else BitVec.ofInt w (a.tmod b))
      ∧ divRaised u w a b = (if dz then [.divisionByZero] else if ov then [.overflow] else [])
      ∧ (decide (b ≠ 0) && divOverflows u w a b) = (ov && !dz) := by
  unfold divQuotient divRemainder divRaised divOverflows
  rcases eq_or_ne b 0 with rfl | hb
  · simp
  · simp [hb]

/-- Where no exception it raises is potent, DIV writes its quotient and then, in the file that left, its remainder. -/
theorem exec_div_of_nonePotent {m : MMode} {u : Bool} {d : Nat} {o : Operand2} {s : State}
    (hready : GprReady s m.width (d :: o.registers)) (hmode : s.hasMode m = true) (hdiv : s.cfg.hasDiv = true) :
    let a := intValue u (s.readGpr d m.width)
    let b := intValue u (o.value s m u)
    NonePotent s (divRaised u m.width a b) →
    exec (o.instr (.divReg m u d) (.divImm m u d)) s
      = .next (s.afterResult (divRaised u m.width a b)
          (intFlags u (s.readGpr d m.width) (o.value s m u) (divQuotient u m.width a b)
            (decide (b ≠ 0) && divOverflows u m.width a b) (decide (b = 0)))
          (writeFile (writeFile s.gpr s.vw d (divQuotient u m.width a b)) s.vw (s.subsequent d m.width)
            (divRemainder u m.width a b))) := by
  intro a b hnone
  have hwritten : (s.writeGpr d (divQuotient u m.width a b)).writeGpr (s.subsequent d m.width)
      (divRemainder u m.width a b) = _ := State.writeGpr_withGpr hready.1 _ _ _
  rw [exec_div, runDiv, s.guarded_of_none _ _ _ (hready.firstHit_gprChecks_eq_none (by simp [hmode, hdiv])), hwritten,
    State.complete_withGpr _ _ hnone]

/-- Settles O43: the remainder is written in the file that the quotient's write left. -/
theorem divCompletes : Obligations.DivCompletes := by
  intro m u d o s hready hmode hdiv
  have ⟨hbank, _, hparts, hregs⟩ := hready
  have hd : d < s.gpr.length := hregs d List.mem_cons_self
  have hnext : s.subsequent d m.width < s.gpr.length := Nat.mod_lt _ (by omega)
  obtain ⟨hq, hrem, hraised, hflag⟩ :=
    div_cases u m.width (intValue u (s.readGpr d m.width)) (intValue u (o.value s m u))
  have hexec := exec_div_of_nonePotent (u := u) hready hmode hdiv
  dsimp only [maxInt] at hq hrem hraised hflag hexec ⊢
  rw [hraised, hflag, hrem, hq] at hexec
  intro hnone
  refine ⟨_, _, hexec hnone, fileUpdated_gpr rfl _ hd hparts, ?_, State.afterResult_onlyGprs _ _ _ hbank,
    State.afterResult_completed _ _ _, ?_⟩
  · rw [State.afterResult_gpr _ _ _ hbank]
    exact fileUpdated_gpr (length_writeFile ..) _ hnext hparts
  · rw [← getLsbD_intFlags]
    exact State.afterResult_estIs _ _ _

end Sys2Proof.Machine
end

section
/-! PROOFS. A potent exception of the operation itself traps (R213, R290): what each integer and each FP instruction
raises, and that its checks come before. -/
namespace Sys2Proof.Machine

/-! ### Integer instructions (R203 to R208, R234) -/

/-- The exact result is out of the range of the mode. -/
theorem representable_eq_false_iff (u : Bool) (w : Nat) (r : Int) :
    representable u w r = false
      ↔ if u then r < 0 ∨ 2 ^ w - 1 < r else r < -2 ^ (w - 1) ∨ 2 ^ (w - 1) - 1 < r := by
  cases u with
  | true =>
    rw [← Bool.not_eq_true, representable_true_iff, if_pos rfl]
    omega
  | false =>
    rw [← Bool.not_eq_true, representable_false_iff, if_neg nofun]
    omega

/-- A left shift multiplies, modulo 2^W (R234). -/
theorem shiftLeft_eq_ofNat {w : Nat} (v : BitVec w) (n : Nat) : shiftLeft v n = BitVec.ofNat w (v.toNat * 2 ^ n) := by
  apply BitVec.eq_of_toNat_eq
  rw [shiftLeft, BitVec.toNat_ofNat]
  split
  · obtain ⟨k, rfl⟩ := Nat.exists_eq_add_of_le ‹w ≤ n›
    rw [pow_add, Nat.mul_left_comm, Nat.mul_mod_right]
    rfl
  · rw [BitVec.toNat_shiftLeft, Nat.shiftLeft_eq]

/-- SL does its work behind its checks; its count is unsigned (R231). -/
theorem exec_sl (m : MMode) (u : Bool) (d : Nat) (o : Operand2) (s : State) :
    exec (o.instr (.slReg m u d) (.slImm m u d)) s
      = .next (runSl m u d (d :: o.registers) (o.value s m true) s) := by
  cases o <;> rfl

section
variable {m : MMode} {u : Bool} {d : Nat} {o : Operand2} {s : State}

/-- ADD and SUB whose OVERFLOW is potent (R213). -/
theorem addSub_traps {regs : List Nat} {op1 op2 : BitVec m.width} {r : Int} {i : Instr}
    (hready : GprReady s m.width regs) (hmode : s.hasMode m = true) (hpotent : s.potent .overflow = true)
    (hexec : exec i s = .next (s.guarded true (s.gprChecks (s.hasMode m) m.width regs) (runAddSub m u d op1 op2 r s)))
    (hrange : representable u m.width r = false) : Traps s i [.overflow] := by
  rw [runAddSub, hrange] at hexec
  exact traps_of_potent hexec (hready.firstHit_gprChecks_eq_none hmode) ⟨_, List.mem_cons_self, hpotent⟩

/-- DIV whose exception is potent (R208). -/
theorem div_traps (hready : GprReady s m.width (d :: o.registers)) (hmode : s.hasMode m = true)
    (hdiv : s.cfg.hasDiv = true)
    (hpotent : ∃ e ∈ divRaised u m.width (intValue u (s.readGpr d m.width)) (intValue u (o.value s m u)),
      s.potent e = true) :
    Traps s (o.instr (.divReg m u d) (.divImm m u d))
      (divRaised u m.width (intValue u (s.readGpr d m.width)) (intValue u (o.value s m u))) :=
  traps_of_potent (exec_div m u d o s) (hready.firstHit_gprChecks_eq_none (by simp [hmode, hdiv])) hpotent

/-- Arithmetic SL that changes the MSB, where OVERFLOW is potent (R234). -/
theorem sl_traps (hready : GprReady s m.width (d :: o.registers)) (hmode : s.hasMode m = true)
    (hpotent : s.potent .overflow = true)
    (hmsb : (BitVec.ofNat m.width ((s.readGpr d m.width).toNat * 2 ^ (o.value s m true).toNat)).msb
      ≠ (s.readGpr d m.width).msb) :
    Traps s (o.instr (.slReg m false d) (.slImm m false d)) [.overflow] := by
  have hov : (!false && (shiftLeft (s.readGpr d m.width) (o.value s m true).toNat).msb
      != (s.readGpr d m.width).msb) = true := by
    rw [shiftLeft_eq_ofNat]
    simpa using hmsb
  have hexec := exec_sl m false d o s
  rw [runSl, hov] at hexec
  exact traps_of_potent hexec (hready.firstHit_gprChecks_eq_none hmode) ⟨_, List.mem_cons_self, hpotent⟩

end

/-! ### The checks of FP instructions (R287) -/

section
variable {s : State}

/-- A narrower access to some of the same registers is ready too. -/
theorem FpReady.mono {w w' : Nat} {regs regs' : List Nat} (h : FpReady s w regs) (hw : w' ≤ w)
    (hregs : regs' ⊆ regs) : FpReady s w' regs' := by
  obtain ⟨hrange, hbank, hfpu, hlacks, hparts, hexist⟩ := h
  exact ⟨hrange, hbank, hfpu, hlacks, (partsNeeded_mono _ hw).trans hparts, fun r hr => hexist r (hregs hr)⟩

/-- Where the FPU, the word, the width and the registers are there, no check of an FP instruction holds (R287). -/
theorem FpReady.firstHit_fpChecks_eq_none {w : Nat} {regs : List Nat} {implemented : Bool} (h : FpReady s w regs)
    (himp : implemented = true) : firstHit (s.fpChecks implemented w regs) = none := by
  obtain ⟨-, -, hfpu, hlacks, hparts, hexist⟩ := h
  have hfpu : s.hasFpu = true := bne_iff_ne.2 hfpu
  have hfits := (accessFits_eq_true s.fpFile s.fpPart w).2 (.inr hparts)
  have hexist : regs.any (missing s.fpFile) = false := by simpa [missing] using hexist
  rw [State.fpChecks, firstHit_cons_of_false _ _ (by simp [hfpu, himp, hlacks, hfits]),
    firstHit_cons_of_false _ _ hexist]
  rfl

/-- The same for a conversion, with a register of the integer's file at the same number. -/
theorem FpReady.firstHit_convertChecks_eq_none {m : MMode} {d : Nat} (h : FpReady s s.cfg.fp.width [d])
    (hmode : s.hasMode m = true) (hparts : partsNeeded s.intPart m.width ≤ s.intFile.length)
    (hd : d < s.intFile.length) : firstHit (s.convertChecks m d) = none := by
  obtain ⟨-, -, hfpu, hlacks, hfpParts, hexist⟩ := h
  have hfpu : s.hasFpu = true := bne_iff_ne.2 hfpu
  have hfp := (accessFits_eq_true s.fpFile s.fpPart _).2 (.inr hfpParts)
  have hint := (accessFits_eq_true s.intFile s.intPart _).2 (.inr hparts)
  rw [State.convertChecks, firstHit_cons_of_false _ _ (by simp [hfpu, hmode, hlacks, hfp, hint]),
    firstHit_cons_of_false _ _ (by simp [missing, hd, hexist d List.mem_cons_self])]
  rfl

/-! ### The set S of R294 -/

/-- Two rounded results that raise the same (R288). -/
def Rounded.Agrees (r r' : Rounded) : Prop :=
  r.overflow = r'.overflow ∧ r.tiny = r'.tiny ∧ r.inexact = r'.inexact

/-- What a rounded result raises depends on its overflow, tininess and inexactness alone (R288, R290). -/
theorem Rounded.Agrees.roundingRaised {r r' : Rounded} (h : r.Agrees r') :
    s.roundingRaised r = raisedByRounding s r' := by
  obtain ⟨hoverflow, htiny, hinexact⟩ := h
  rw [State.roundingRaised, raisedByRounding, hoverflow, htiny, hinexact]
  cases r'.overflow with
  | true => cases s.potent .fpOverflow <;> rfl
  | false => cases r'.tiny <;> cases r'.inexact <;> cases s.potent .fpUnderflow <;> rfl

/-- The instruction traps with all it raised where an exception among it is potent. -/
def TrapsIfPotent (s : State) (i : Instr) (raised : List Exc) : Prop :=
  (∃ e ∈ raised, s.potent e = true) → Traps s i raised

/-- An FP instruction with an FP result raises the set S of R294. `r` agrees with the result. -/
theorem fp_traps {i : Instr} {arithmetic : Bool} {checks : List (Bool × Exc)} {f : FpFormat} {d : Nat} {r : Rounded}
    (k : FpWork) (hexec : exec i s = .next (s.guarded arithmetic checks (finishFp f d k s)))
    (hchecks : firstHit checks = none) (hresult : k.result.Agrees r) :
    TrapsIfPotent s i (raisedByFp s k.invalid k.denormalOperand k.divisionByZero r) := by
  have hraised : s.fpRaised k = raisedByFp s k.invalid k.denormalOperand k.divisionByZero r := by
    rw [State.fpRaised, hresult.roundingRaised, raisedByFp]
  rw [finishFp, hraised] at hexec
  exact traps_of_potent hexec hchecks

/-! ### FP instructions with one rounding (R300 to R304, R306, R337, R338) -/

/-- The result of an FP operation without bits dropped (R284, R292). -/
theorem fpOutcome_agrees (v : Option FpVal) : (fpOutcome s v false).Agrees (fpRoundedResult s s.cfg.fp v) := by
  cases v <;> exact ⟨rfl, rfl, rfl⟩

/-- FABS and FNEG do not round (R307, R308). -/
theorem withSign_agrees (d : Nat) (neg : Bool) : (withSign s d neg).Agrees { bits := 0 } := by
  rw [withSign]
  split <;> exact ⟨rfl, rfl, rfl⟩

section
variable {d r n : Nat} (h : FpReady s s.cfg.fp.width [d, r, n])
include h

theorem FpReady.firstHit_one : firstHit (s.fpChecks true s.cfg.fp.width [d]) = none :=
  (h.mono le_rfl (by simp)).firstHit_fpChecks_eq_none rfl

theorem FpReady.firstHit_two : firstHit (s.fpChecks true s.cfg.fp.width [d, r]) = none :=
  (h.mono le_rfl (by simp)).firstHit_fpChecks_eq_none rfl

/-- FADD, FSUB and FMUL. -/
theorem runFp2_traps (v : Option FpVal) {i : Instr} (hexec : exec i s = .next (runFp2 d r v s)) :
    TrapsIfPotent s i
      (raisedByFp s v.isNone (s.fpDenormal d || s.fpDenormal r) false (fpRoundedResult s s.cfg.fp v)) :=
  fp_traps (twoOperandWork s d r v) hexec h.firstHit_two (fpOutcome_agrees v)

/-- FMAD and FMSU, one operation on the exact product (R337, R338). -/
theorem runFpFused_traps (z : FpVal) {i : Instr} (hexec : exec i s = .next (runFpFused d r n z s)) :
    TrapsIfPotent s i
      (raisedByFp s ((fpMul (s.fpValue d) (s.fpValue r)).bind fun v => fpAdd s.roundingMode v z).isNone
        (s.fpDenormal d || s.fpDenormal r || s.fpDenormal n) false
        (fpRoundedResult s s.cfg.fp ((fpMul (s.fpValue d) (s.fpValue r)).bind fun v => fpAdd s.roundingMode v z))) := by
  rw [runFpFused] at hexec
  have hchecks : firstHit (s.fpChecks true s.cfg.fp.width [d, r, n]) = none := h.firstHit_fpChecks_eq_none rfl
  cases hmul : fpMul (s.fpValue d) (s.fpValue r) <;> rw [hmul] at hexec <;>
    exact fp_traps _ hexec hchecks (fpOutcome_agrees _)

/-- FDIV: FP DIVISION BY ZERO is that of a finite number by zero (R303). -/
theorem fdiv_traps :
    TrapsIfPotent s (.fdiv d r)
      (raisedByFp s (fpDiv s.cfg.fp (s.fpValue d) (s.fpValue r)).isNone (s.fpDenormal d || s.fpDenormal r)
        (match s.fpValue d, s.fpValue r with
          | .finite _ _ _, .zero _ => true
          | _, _ => false)
        (match fpDiv s.cfg.fp (s.fpValue d) (s.fpValue r) with
          | none => { bits := quietNan s.cfg.fp }
          | some q => roundTo s.cfg.fp s.roundingMode q.value q.sticky)) := by
  have hzero (x y : FpVal) : (match x, y with
      | .finite _ _ _, .zero _ => true
      | _, _ => false) = (fpDiv s.cfg.fp x y).any Quotient.byZero := by
    cases x <;> cases y <;> rfl
  rw [hzero]
  refine fp_traps (divWork s d r) rfl h.firstHit_two ?_
  rw [divWork]
  cases fpDiv s.cfg.fp (s.fpValue d) (s.fpValue r) <;> exact ⟨rfl, rfl, rfl⟩

/-- FREM is exact, so it raises no rounding exception (R304). -/
theorem frem_traps :
    TrapsIfPotent s (.frem d r)
      (raisedByFp s (fpRem (s.fpValue d) (s.fpValue r)).isNone (s.fpDenormal d || s.fpDenormal r) false
        { bits := 0 }) :=
  fp_traps (remWork s d r) rfl h.firstHit_two ⟨rfl, rfl, rfl⟩

/-- FSQR (R306). -/
theorem fsqr_traps :
    TrapsIfPotent s (.fsqr d)
      (raisedByFp s (fpSqrt s.cfg.fp (s.fpValue d)).isNone (s.fpDenormal d) false
        (match fpSqrt s.cfg.fp (s.fpValue d) with
          | none => { bits := quietNan s.cfg.fp }
          | some q => roundTo s.cfg.fp s.roundingMode q.1 q.2)) := by
  refine fp_traps (oneOperandWork s d _ _) rfl h.firstHit_one ?_
  rw [oneOperandWork]
  cases fpSqrt s.cfg.fp (s.fpValue d) <;> exact ⟨rfl, rfl, rfl⟩

/-- FABS and FNEG (R307, R308). -/
theorem withSign_traps (neg : Bool) {i : Instr}
    (hexec : exec i s = .next (runFp1 d (s.fpValue d).isSignaling (withSign s d neg) s)) :
    TrapsIfPotent s i (raisedByFp s (s.fpValue d).isSignaling (s.fpDenormal d) false { bits := 0 }) :=
  fp_traps (oneOperandWork s d _ _) hexec h.firstHit_one (withSign_agrees d neg)

/-- FRND overflows where its integer does (R309, log 47). -/
theorem frnd_traps :
    TrapsIfPotent s (.frnd d)
      (raisedByFp s (s.fpValue d).isSignaling (s.fpDenormal d) false
        { bits := 0
          overflow := (roundTo s.cfg.fp s.roundingMode (fpRoundInt s.roundingMode (s.fpValue d)).1 false).overflow
          inexact := (fpRoundInt s.roundingMode (s.fpValue d)).2 }) :=
  fp_traps (oneOperandWork s d _ (roundIntResult s d)) rfl h.firstHit_one ⟨rfl, rfl, rfl⟩

end

/-- FCMP writes flags, not an FP result, and raises nothing of rounding (R305). -/
theorem fcmp_traps {d r n : Nat} (h : FpReady s (max s.cfg.fp.width 16) [d, r, n]) :
    TrapsIfPotent s (.fcmp d r)
      (raisedByFp s ((s.fpValue d).isSignaling || (s.fpValue r).isSignaling) (s.fpDenormal d || s.fpDenormal r) false
        { bits := 0 }) := by
  have hraised : compareRaised s d r = raisedByFp s ((s.fpValue d).isSignaling || (s.fpValue r).isSignaling)
      (s.fpDenormal d || s.fpDenormal r) false { bits := 0 } := by
    rw [compareRaised, raisedByFp]
    cases (s.fpValue d).isSignaling || (s.fpValue r).isSignaling <;> simp [raisedByRounding]
  rw [← hraised]
  exact traps_of_potent (checks := s.fpChecks true (max s.cfg.fp.width 16) [d, r]) rfl
    ((h.mono le_rfl (by simp)).firstHit_fpChecks_eq_none rfl)

/-! ### Format conversions (R315 to R319) -/

/-- Each FEXT and FSQZ converts the format of its mode (R315). -/
theorem exec_formatForms (s : State) (d : Nat) :
    ∀ q ∈ formatForms d, exec q.1 s = .next (runFext q.2.2 d s) ∧ exec q.2.1 s = .next (runFsqz q.2.2 d s) := by
  simp only [formatForms, List.forall_mem_cons, List.not_mem_nil, false_implies, implies_true, and_true]
  and_intros <;> rfl

/-- FEXT is exact and raises no rounding exception (log 31); FSQZ rounds to its format. -/
theorem formatForms_trap {d : Nat} {m : MMode} {ext sqz : Instr} (h : FpReady s s.cfg.fp.width [d])
    (hformat : m ∈ s.cfg.fpFormats) (hwidth : m.width ≤ s.cfg.fp.width) (hext : exec ext s = .next (runFext m d s))
    (hsqz : exec sqz s = .next (runFsqz m d s)) :
    TrapsIfPotent s ext
        (raisedByFp s (unpack (modeFormat m) (s.readFp d m.width).toNat).isSignaling
          (isDenormal (modeFormat m) (s.readFp d m.width).toNat) false { bits := 0 })
      ∧ TrapsIfPotent s sqz
        (raisedByFp s (s.fpValue d).isSignaling (s.fpDenormal d) false
          (roundTo (modeFormat m) s.roundingMode (s.fpValue d) false)) := by
  have hchecks : firstHit (s.fpChecks (s.convertsFormat m) s.cfg.fp.width [d]) = none :=
    h.firstHit_fpChecks_eq_none (by simp [State.convertsFormat, hformat, hwidth])
  exact ⟨fp_traps _ hext hchecks ⟨rfl, rfl, rfl⟩, fp_traps _ hsqz hchecks ⟨rfl, rfl, rfl⟩⟩

/-! ### Integer conversions (R310, R311) -/

theorem convertedInt_of_representable {m : MMode} {u : Bool} {d : Nat} {k : Int} {inexact : Bool}
    (h : fpToInt s.roundingMode (s.fpValue d) = some (k, inexact)) (hrange : representable u m.width k = true) :
    convertedInt s m u d = some (k, inexact) := by
  rw [convertedInt, h]
  cases u with
  | true => simpa using (representable_true_iff ..).1 hrange
  | false => simpa using (representable_false_iff ..).1 hrange

theorem convertedInt_eq_none {m : MMode} {u : Bool} {d : Nat}
    (h : ∀ k inexact, fpToInt s.roundingMode (s.fpValue d) = some (k, inexact) → representable u m.width k ≠ true) :
    convertedInt s m u d = none := by
  rw [convertedInt]
  cases hint : fpToInt s.roundingMode (s.fpValue d) with
  | none => rfl
  | some q =>
    have hrange := h q.1 q.2 hint
    cases u with
    | true => simpa using (representable_true_iff ..).not.1 hrange
    | false => simpa using (representable_false_iff ..).not.1 hrange

section
variable {m : MMode} {u : Bool} {d : Nat} (hchecks : firstHit (s.convertChecks m d) = none)
include hchecks

/-- FF2I of a number whose integer is in range (R310). -/
theorem ff2i_traps {k : Int} {inexact : Bool} (hint : convertedInt s m u d = some (k, inexact)) :
    TrapsIfPotent s (.ff2i m u d)
      ((if s.fpDenormal d then [.fpDenormalizedOperand] else []) ++ if inexact then [.fpInexactResult] else []) := by
  have hexec : exec (.ff2i m u d) s = .next (runFf2i m u d s) := rfl
  rw [runFf2i, hint] at hexec
  exact traps_of_potent hexec hchecks

/-- FF2I with no integer in range is an invalid operation (R310). -/
theorem ff2i_traps_of_invalid (hint : convertedInt s m u d = none) :
    TrapsIfPotent s (.ff2i m u d)
      (.fpInvalidOperation :: if s.fpDenormal d then [.fpDenormalizedOperand] else []) := by
  have hexec : exec (.ff2i m u d) s = .next (runFf2i m u d s) := rfl
  rw [runFf2i, hint] at hexec
  exact traps_of_potent hexec hchecks

/-- FI2F raises what rounding its integer does (R311). -/
theorem fi2f_traps :
    TrapsIfPotent s (.fi2f m u d)
      (raisedByFp s false false false
        (roundTo s.cfg.fp s.roundingMode (ofSigned (intValue u (s.readInt d m.width)) 0 false) false)) :=
  fp_traps { result := _ } rfl hchecks ⟨rfl, rfl, rfl⟩

end

end

/-- Settles O47: each instruction comes to its end with the exceptions it raised, behind checks that pass. -/
theorem potentResultExceptionsTrap : Obligations.PotentResultExceptionsTrap := by
  intro m u d r n o s
  dsimp only
  refine ⟨fun hready hmode => ?integer, fun hready => ?float, fun hready hmode _ hparts hd => ?convert⟩
  case integer =>
    obtain ⟨hadd, hsub⟩ := exec_addSub m u d o s
    refine ⟨fun hpotent hbad => ?_, fun hpotent hbad => ?_, fun hdiv hpotent hb => ?_,
      fun hdiv hpotent hu ha hb => ?_, fun hpotent hu hmsb => ?_⟩
    · exact addSub_traps hready hmode hpotent hadd ((representable_eq_false_iff ..).2 hbad)
    · exact addSub_traps hready hmode hpotent hsub ((representable_eq_false_iff ..).2 hbad)
    · have hraised : divRaised u m.width (intValue u (s.readGpr d m.width)) (intValue u (o.value s m u))
          = [.divisionByZero] := if_pos hb
      exact hraised ▸ div_traps hready hmode hdiv (by simpa [hraised] using hpotent)
    · subst hu
      have hraised : divRaised false m.width (intValue false (s.readGpr d m.width)) (intValue false (o.value s m false))
          = [.overflow] := by simp [divRaised, divOverflows, ha, hb]
      exact hraised ▸ div_traps hready hmode hdiv (by simpa [hraised] using hpotent)
    · subst hu
      exact sl_traps hready hmode hpotent hmsb
  case float =>
    have h := hready.mono (le_max_left s.cfg.fp.width 16) (List.Subset.refl _)
    refine ⟨?sums, fdiv_traps h, frem_traps h, fcmp_traps hready, fsqr_traps h, ?signs, frnd_traps h, ?formats⟩
    case sums =>
      simp only [List.forall_mem_cons, List.not_mem_nil, false_implies, implies_true, and_true]
      exact ⟨runFp2_traps h _ rfl, runFp2_traps h _ rfl, runFp2_traps h _ rfl, runFpFused_traps h _ rfl,
        runFpFused_traps h _ rfl⟩
    case signs =>
      simp only [List.forall_mem_cons, List.not_mem_nil, false_implies, implies_true, and_true]
      exact ⟨withSign_traps h _ rfl, withSign_traps h _ rfl⟩
    case formats =>
      intro q hq hformat hwidth
      obtain ⟨hext, hsqz⟩ := exec_formatForms s d q hq
      exact formatForms_trap (h.mono le_rfl (by simp)) hformat hwidth hext hsqz
  case convert =>
    have hchecks := hready.firstHit_convertChecks_eq_none hmode hparts hd
    simp only [← representable_iff]
    refine ⟨fun k inexact hint hrange => ?_, fun hnone => ?_, fi2f_traps hchecks⟩
    · exact ff2i_traps hchecks (convertedInt_of_representable hint hrange)
    · exact ff2i_traps_of_invalid hchecks (convertedInt_eq_none hnone)

end Sys2Proof.Machine
end

section
/-! PROOFS. The shifts and rotates complete (R230 to R237): the exact results of a right shift, where a rotate brings
each bit from, and what the logic family leaves. -/
namespace Sys2Proof.Machine

/-! ### Completing (R232, R233) -/

/-- The flags of LogEST, bit by bit (R233). -/
theorem getLsbD_logFlags {w : Nat} (op1 op2 res : BitVec w) (ov : Bool) :
    (logFlags op1 op2 res ov).getLsbD = logBits op1.toNat op2.toNat res.msb (decide (res = 0)) ov false := by
  funext n
  rw [logFlags, EstFlags.getLsbD_bits]
  rcases Nat.lt_or_ge n 16 with hn | hn
  · interval_cases n <;> rfl
  · obtain ⟨k, rfl⟩ := Nat.exists_eq_add_of_le' hn
    rfl

/-- A shift, rotate or logic instruction completes, where an OVERFLOW it raised is impotent. -/
theorem logic_done {m : MMode} {d : Nat} {regs : List Nat} {op1 op2 res : BitVec m.width} {ov : Bool} {s : State}
    {i : Instr} (hready : GprReady s m.width (d :: regs)) (hmode : s.hasMode m = true)
    (hexec : exec i s = .next (runLogic m d (d :: regs) op1 op2 res ov s))
    (himpotent : ov = true → s.potent .overflow = false) :
    ∃ t, exec i s = .next t ∧ IntDone s t d res (if ov then [.overflow] else [])
      (logBits op1.toNat op2.toNat res.msb (decide (res = 0)) ov false) := by
  rw [← getLsbD_logFlags]
  refine intDone_of_guarded hexec (hready.firstHit_gprChecks_eq_none hmode) hready ?_
  cases ov with
  | true => simpa [NonePotent] using himpotent
  | false => simp [NonePotent]

/-! ### SR (R235) -/

/-- A right shift by `n` places, bit by bit: the places it empties hold the bit it pulls. -/
theorem getLsbD_shiftRight {w : Nat} (v : BitVec w) (n : Nat) (fill : Bool) {j : Nat} (hj : j < w) :
    (shiftRight v n fill).getLsbD j = if n + j < w then v.getLsbD (n + j) else fill := by
  rw [shiftRight]
  split
  case isTrue hout =>
    have hemptied : ¬n + j < w := by omega
    cases fill <;> simp [hj, hemptied]
  case isFalse hin =>
    by_cases hkept : n + j < w
    · cases fill <;> simp [hj, hkept]
    · cases fill <;> simp [hj, hkept, BitVec.getLsbD_of_ge v (n + j) (by omega)]

/-- Pulling the MSB is the signed shift. -/
theorem shiftRight_msb {w : Nat} (v : BitVec w) (n : Nat) : shiftRight v n v.msb = v.sshiftRight n := by
  refine BitVec.eq_of_getLsbD_eq fun j hj => ?_
  rw [getLsbD_shiftRight v n _ hj, BitVec.getLsbD_sshiftRight]
  simp [hj]

/-- Pulling zeros is the unsigned shift. -/
theorem shiftRight_false {w : Nat} (v : BitVec w) (n : Nat) : shiftRight v n false = v >>> n := by
  refine BitVec.eq_of_getLsbD_eq fun j hj => ?_
  rw [getLsbD_shiftRight v n _ hj, BitVec.getLsbD_ushiftRight]
  split
  · rfl
  · exact (BitVec.getLsbD_of_ge v (n + j) (by omega)).symm

/-- A right shift divides the operand's value by 2^n and rounds down, signed for U = 0 and unsigned for U = 1. -/
theorem shiftRight_eq_ofInt (u : Bool) {w : Nat} (v : BitVec w) (n : Nat) :
    shiftRight v n (!u && v.msb) = BitVec.ofInt w (intValue u v / 2 ^ n) := by
  cases u with
  | true =>
    have hdiv : intValue true v / 2 ^ n = ((v >>> n).toNat : Int) := by
      rw [BitVec.toNat_ushiftRight, Nat.shiftRight_eq_div_pow]
      push_cast
      rfl
    rw [hdiv, BitVec.ofInt_natCast, BitVec.ofNat_toNat, BitVec.setWidth_eq]
    exact shiftRight_false v n
  | false =>
    have hdiv : intValue false v / 2 ^ n = (v.sshiftRight n).toInt := by
      rw [BitVec.toInt_sshiftRight, Int.shiftRight_eq_div_pow]
      push_cast
      rfl
    rw [hdiv, BitVec.ofInt_toInt]
    exact shiftRight_msb v n

/-! ### RL and RR (R236, R237) -/

/-- A rotate left takes each bit from `k` places down, round the width. -/
theorem getLsbD_rotateLeft_eq_mod {w : Nat} (v : BitVec w) {k j : Nat} (hk : k < w) (hj : j < w) :
    (v.rotateLeft k).getLsbD j = v.getLsbD ((j + w - k) % w) := by
  rw [BitVec.getLsbD_rotateLeft, Nat.mod_eq_of_lt hk]
  rcases Nat.lt_or_ge j k with hwrap | hstay
  · rw [Nat.mod_eq_of_lt (by omega), decide_eq_true hwrap, cond_true]
    congr 1
    omega
  · have hplace : (j + w - k) % w = j - k := by
      rw [Nat.sub_add_comm hstay, Nat.add_mod_right, Nat.mod_eq_of_lt (by omega)]
    rw [hplace, decide_eq_false (by omega), cond_false, decide_eq_true hj, Bool.true_and]

/-- A rotate right takes each bit from `k` places up, round the width. -/
theorem getLsbD_rotateRight_eq_mod {w : Nat} (v : BitVec w) {k j : Nat} (hk : k < w) (hj : j < w) :
    (v.rotateRight k).getLsbD j = v.getLsbD ((j + k) % w) := by
  rw [BitVec.getLsbD_rotateRight, Nat.mod_eq_of_lt hk]
  rcases Nat.lt_or_ge j (w - k) with hstay | hwrap
  · rw [Nat.mod_eq_of_lt (by omega), decide_eq_true hstay, cond_true, Nat.add_comm]
  · have hplace : (j + k) % w = j - (w - k) := by
      rw [Nat.mod_eq_sub_mod (by omega), Nat.mod_eq_of_lt (by omega)]
      omega
    rw [hplace, decide_eq_false (by omega), cond_false, decide_eq_true hj, Bool.true_and]

/-! ### The four instructions -/

section
variable (m : MMode) (u : Bool) (d : Nat) (o : Operand2) (s : State)

/-- SR does its work behind its checks; its count is unsigned (R231). -/
theorem exec_sr :
    exec (o.instr (.srReg m u d) (.srImm m u d)) s
      = .next (runSr m u d (d :: o.registers) (o.value s m true) s) := by
  cases o <;> rfl

/-- RL and RR do theirs behind the same checks. -/
theorem exec_rotates :
    exec (o.instr (.rlReg m d) (.rlImm m d)) s
        = .next (runRl m d (d :: o.registers) (o.value s m true) s)
      ∧ exec (o.instr (.rrReg m d) (.rrImm m d)) s
        = .next (runRr m d (d :: o.registers) (o.value s m true) s) := by
  cases o <;> exact ⟨rfl, rfl⟩

end

/-- Settles O44: each of the four is the logic family's work on its result. A left shift multiplies, a right shift
divides, and a rotate moves the bits by the count modulo the width. -/
theorem shiftsAndRotatesComplete : Obligations.ShiftsAndRotatesComplete := by
  intro m u d o s hready hmode
  have hk : (o.value s m true).toNat % m.width < m.width := Nat.mod_lt _ (MMode.width_bounds m).1
  obtain ⟨hrl, hrr⟩ := exec_rotates m d o s
  refine ⟨fun himpotent => ?sl, ?sr, ?rl, ?rr⟩
  case sl =>
    rw [← shiftLeft_eq_ofNat] at himpotent ⊢
    exact logic_done hready hmode (exec_sl m u d o s) himpotent
  case sr =>
    rw [← shiftRight_eq_ofInt]
    exact logic_done hready hmode (exec_sr m u d o s) nofun
  case rl => exact ⟨_, fun j => getLsbD_rotateLeft_eq_mod _ hk, logic_done hready hmode hrl nofun⟩
  case rr => exact ⟨_, fun j => getLsbD_rotateRight_eq_mod _ hk, logic_done hready hmode hrr nofun⟩

end Sys2Proof.Machine
end

section
/-! PROOFS. The logic and bit instructions complete (R250 to R267): each result bit by bit, and the bit instructions at
a bit number outside the operand or the ALU. -/
namespace Sys2Proof.Machine

/-! ### AND, NAND, OR and XOR (R250 to R256) -/

/-- The instruction completes with this function of the operands' bits as its result and with the flags of LogEST
(R233). -/
def BitsDone (s : State) (m : MMode) (d : Nat) (i : Instr) (op1 op2 : BitVec m.width) (bit : Nat → Bool) : Prop :=
  ∃ t, ∃ res : BitVec m.width, exec i s = .next t
    ∧ (∀ j, j < m.width → res.getLsbD j = bit j)
    ∧ IntDone s t d res [] (logBits op1.toNat op2.toNat res.msb (decide (res = 0)) false false)

/-- Each of the four is the logic family's work on its result; a register form ignores U (R251; log 30). -/
theorem exec_logic (m : MMode) (u : Bool) (d : Nat) (o : Operand2) (s : State) :
    let a := s.readGpr d m.width
    let b := o.value s m u
    let work := fun res => Host.Outcome.next (runLogic m d (d :: o.registers) a b res false s)
    exec (o.instr (.andReg m u d) (.andImm m u d)) s = work (a &&& b)
      ∧ exec (o.instr (.nandReg m u d) (.nandImm m u d)) s = work (~~~(a &&& b))
      ∧ exec (o.instr (.orReg m u d) (.orImm m u d)) s = work (a ||| b)
      ∧ exec (o.instr (.xorReg m u d) (.xorImm m u d)) s = work (a ^^^ b) := by
  cases o <;> exact ⟨rfl, rfl, rfl, rfl⟩

/-- The logic family's work raises no exception of its own (R250). -/
theorem logic_bitsDone {m : MMode} {d : Nat} {regs : List Nat} {op1 op2 res : BitVec m.width} {s : State} {i : Instr}
    {bit : Nat → Bool} (hready : GprReady s m.width (d :: regs)) (hmode : s.hasMode m = true)
    (hexec : exec i s = .next (runLogic m d (d :: regs) op1 op2 res false s))
    (hbits : ∀ j, j < m.width → res.getLsbD j = bit j) : BitsDone s m d i op1 op2 bit := by
  obtain ⟨t, ht, hdone⟩ := logic_done hready hmode hexec nofun
  exact ⟨t, res, ht, hbits, hdone⟩

/-- Settles O45: each of the four is the logic family's work on a result that is the operation on each bit. -/
theorem logicCompletes : Obligations.LogicCompletes := by
  intro m u d o s hready hmode
  obtain ⟨hand, hnand, hor, hxor⟩ := exec_logic m u d o s
  refine ⟨logic_bitsDone hready hmode hand fun j hj => ?and, logic_bitsDone hready hmode hnand fun j hj => ?nand,
    logic_bitsDone hready hmode hor fun j hj => ?or, logic_bitsDone hready hmode hxor fun j hj => ?xor⟩
  case and => exact BitVec.getLsbD_and
  case nand => rw [BitVec.getLsbD_not, BitVec.getLsbD_and, decide_eq_true hj, Bool.true_and]
  case or => exact BitVec.getLsbD_or
  case xor => exact BitVec.getLsbD_xor

/-! ### The results of the bit instructions (R264 to R267) -/

section
variable {w : Nat} {b j : Nat}

/-- The one-bit mask of SB and RB. -/
theorem getLsbD_shiftLeft_one (hb : b < w) (j : Nat) : (shiftLeft (1#w) b).getLsbD j = decide (j = b) := by
  rw [shiftLeft, if_neg hb.not_ge, ← BitVec.twoPow_eq, BitVec.getLsbD_twoPow, decide_eq_true hb, Bool.true_and]
  exact decide_eq_decide.2 eq_comm

/-- SB sets the bit and keeps the others (R264). -/
theorem getLsbD_setBit (v : BitVec w) (hb : b < w) :
    (v ||| shiftLeft (1#w) b).getLsbD j = (v.getLsbD j || decide (j = b)) := by
  rw [BitVec.getLsbD_or, getLsbD_shiftLeft_one hb]

/-- RB resets the bit and keeps the others (R265). -/
theorem getLsbD_resetBit (v : BitVec w) (hb : b < w) (hj : j < w) :
    (v &&& ~~~shiftLeft (1#w) b).getLsbD j = (v.getLsbD j && decide (j ≠ b)) := by
  rw [BitVec.getLsbD_and, BitVec.getLsbD_not, getLsbD_shiftLeft_one hb, decide_eq_true hj, Bool.true_and, decide_not]

/-- TB leaves the tested bit in bit 0 and zeros above (R266). -/
theorem getLsbD_testedBit (tested : Bool) (hj : j < w) :
    (BitVec.ofNat w tested.toNat).getLsbD j = (decide (j = 0) && tested) := by
  rw [BitVec.getLsbD_ofNat, decide_eq_true hj, Bool.true_and, Nat.testBit_bool_toNat]

theorem reverseBits_lt (k v : Nat) : reverseBits k v < 2 ^ k := by
  induction k generalizing v with
  | zero => exact Nat.one_pos
  | succ k ih =>
    have hbit : v % 2 * 2 ^ k ≤ 1 * 2 ^ k := Nat.mul_le_mul_right _ (by omega)
    have hrest := ih (v / 2)
    rw [reverseBits, pow_succ]
    omega

/-- Reversing the low `k` bits exchanges the places from the two ends (R267). -/
theorem testBit_reverseBits {k : Nat} (v : Nat) (hj : j < k) :
    (reverseBits k v).testBit j = v.testBit (k - 1 - j) := by
  induction k generalizing v j with
  | zero => exact absurd hj (Nat.not_lt_zero j)
  | succ k ih =>
    rw [reverseBits, Nat.mul_comm, Nat.testBit_two_pow_mul_add _ (reverseBits_lt k _), Nat.add_sub_cancel]
    split
    case isTrue hlow =>
      rw [ih _ hlow, Nat.testBit_div_two]
      congr 1
      omega
    case isFalse hhigh =>
      obtain rfl : j = k := by omega
      rw [Nat.sub_self, Nat.testBit_zero, Nat.testBit_zero, Nat.mod_mod]

/-- RVB reverses the bits from `b` down to 0 and keeps those above (R267). -/
theorem getLsbD_reverseLow (v : BitVec w) (hj : j < w) :
    (reverseLow v b).getLsbD j = if j ≤ b then v.getLsbD (b - j) else v.getLsbD j := by
  rw [reverseLow, BitVec.getLsbD_ofNat, decide_eq_true hj, Bool.true_and, Nat.mul_comm,
    Nat.testBit_two_pow_mul_add _ (reverseBits_lt _ _)]
  simp only [Nat.lt_succ_iff]
  split
  case isTrue hlow => exact testBit_reverseBits _ (Nat.lt_succ_of_le hlow)
  case isFalse hhigh =>
    rw [Nat.testBit_div_two_pow, Nat.sub_add_cancel (by omega)]
    rfl

end

/-! ### The bit instructions (R260 to R263) -/

/-- The bit number is no bit of the operand or of the ALU (R262). -/
theorem invalidBit_iff (c : Config) (w b : Nat) : invalidBit c w b = true ↔ w ≤ b ∨ c.aluMode.width ≤ b := by
  simp [invalidBit]

/-- At a valid bit number the bit family does the logic family's work. -/
theorem runBit_of_valid {m : MMode} (d : Nat) (regs : List Nat) (op1 res : BitVec m.width) {op2 : BitVec m.width}
    {s : State} (hvalid : invalidBit s.cfg m.width op2.toNat = false) :
    runBit m d regs op1 op2 res s = runLogic m d regs op1 op2 res false s := by
  rw [runBit, hvalid]
  rfl

/-- Each of the four is the bit family's work on its result; its bit number is unsigned (R261). -/
theorem exec_bit (m : MMode) (d : Nat) (o : Operand2) (s : State) :
    let a := s.readGpr d m.width
    let b := o.value s m true
    let work := fun res => Host.Outcome.next (runBit m d (d :: o.registers) a b res s)
    exec (o.instr (.sbReg m d) (.sbImm m d)) s = work (a ||| shiftLeft (1#m.width) b.toNat)
      ∧ exec (o.instr (.rbReg m d) (.rbImm m d)) s = work (a &&& ~~~shiftLeft (1#m.width) b.toNat)
      ∧ exec (o.instr (.tbReg m d) (.tbImm m d)) s = work (BitVec.ofNat m.width (a.getLsbD b.toNat).toNat)
      ∧ exec (o.instr (.rvbReg m d) (.rvbImm m d)) s
        = work (if m.width ≤ b.toNat then a else reverseLow a b.toNat) := by
  cases o <;> exact ⟨rfl, rfl, rfl, rfl⟩

/-- The flags of an invalid bit number, bit by bit (R263, D24). -/
theorem getLsbD_invalidBitFlags {w : Nat} (op1 op2 : BitVec w) :
    (invalidBitFlags op1 op2).getLsbD = logBits op1.toNat op2.toNat false false false true := by
  funext n
  rw [invalidBitFlags, EstFlags.getLsbD_bits]
  rcases Nat.lt_or_ge n 16 with hn | hn
  · interval_cases n <;> rfl
  · obtain ⟨k, rfl⟩ := Nat.exists_eq_add_of_le' hn
    rfl

/-- An instruction that leaves the GPRs alone and raised an impotent exception writes EST and what completing writes
(R408). -/
theorem State.afterResult_of_keepsGprs {s : State} {raised : List Exc} (flags : BitVec 16)
    (hbank : s.bank < s.banks.length) (hraised : raised ≠ []) :
    let t := s.afterResult raised flags s.gpr
    t = { s with
      est := t.est, ic := s.icNext, exc := t.exc, exi := s.ir, lastWord := s.ir, debugDue := t.debugDue } := by
  intro t
  have hframe : OnlyGprs s t := State.afterResult_onlyGprs raised flags s.gpr hbank
  have hgpr : t.gpr = s.gpr := State.afterResult_gpr raised flags s.gpr hbank
  have hbanks : s.banks.set s.bank s.gpr = s.banks := congrArg State.banks (State.withGpr_gpr hbank)
  obtain ⟨hlast, -, hexi, -⟩ := State.afterResult_completed (s := s) raised flags s.gpr
  rw [List.isEmpty_eq_false_iff.2 hraised] at hexi
  rw [OnlyGprs, hgpr, hbanks, hlast, hexi] at hframe
  exact hframe

/-- What a bit instruction does at an invalid bit number (R263; log 24). -/
def InvalidBitDone (s : State) (m : MMode) (i : Instr) (op1 op2 : BitVec m.width) : Prop :=
  ∃ t, exec i s = .next t
    ∧ if s.potent .invalidOperation then Trapped s t [.invalidOperation]
      else t = { s with
          est := t.est, ic := s.icNext, exc := t.exc, exi := s.ir, lastWord := s.ir, debugDue := t.debugDue }
        ∧ Completed s t [.invalidOperation] ∧ EstIs s.est t.est (logBits op1.toNat op2.toNat false false false true)

section
variable {m : MMode} {d : Nat} {regs : List Nat} {op1 op2 res : BitVec m.width} {s : State} {i : Instr}
  {bit : Nat → Bool} (hready : GprReady s m.width (d :: regs)) (hmode : s.hasMode m = true)
  (hexec : exec i s = .next (runBit m d (d :: regs) op1 op2 res s))
include hready hmode hexec

/-- At a valid bit number a bit instruction completes with its result. -/
theorem bit_bitsDone (hvalid : invalidBit s.cfg m.width op2.toNat = false)
    (hbits : ∀ j, j < m.width → res.getLsbD j = bit j) : BitsDone s m d i op1 op2 bit := by
  rw [runBit_of_valid _ _ _ _ hvalid] at hexec
  exact logic_bitsDone hready hmode hexec hbits

/-- At an invalid one it traps or keeps its destination. -/
theorem bit_invalidBitDone (hinvalid : invalidBit s.cfg m.width op2.toNat = true) :
    InvalidBitDone s m i op1 op2 := by
  have hchecks := hready.firstHit_gprChecks_eq_none hmode
  have hbank : s.bank < s.banks.length := hready.1
  rw [runBit, if_pos hinvalid] at hexec
  cases hpotent : s.potent .invalidOperation with
  | true =>
    obtain ⟨t, ht, htrapped⟩ := traps_of_potent hexec hchecks ⟨_, List.mem_cons_self, hpotent⟩
    exact ⟨t, ht, by rwa [if_pos hpotent]⟩
  | false =>
    have hnone : NonePotent s [.invalidOperation] := by simpa [NonePotent] using hpotent
    have hwritten := State.complete_withGpr (invalidBitFlags op1 op2) s.gpr hnone
    rw [State.withGpr_gpr hbank] at hwritten
    rw [s.guarded_of_none _ _ _ hchecks, hwritten] at hexec
    refine ⟨_, hexec, ?_⟩
    rw [if_neg (Bool.eq_false_iff.1 hpotent), ← getLsbD_invalidBitFlags]
    exact ⟨State.afterResult_of_keepsGprs _ hbank (List.cons_ne_nil _ _), State.afterResult_completed _ _ _,
      State.afterResult_estIs _ _ _⟩

end

/-- Settles O46: each of the four is the bit family's work on its result, which it writes at a valid bit number
only. -/
theorem bitInstructionsComplete : Obligations.BitInstructionsComplete := by
  intro m d o s hready hmode
  obtain ⟨hsb, hrb, htb, hrvb⟩ := exec_bit m d o s
  refine ⟨fun ⟨hb, halu⟩ => ?valid, fun hout => ?invalid⟩
  case valid =>
    have hvalid : invalidBit s.cfg m.width (o.value s m true).toNat = false := by
      rw [← Bool.not_eq_true, invalidBit_iff]
      omega
    rw [if_neg hb.not_ge] at hrvb
    exact ⟨bit_bitsDone hready hmode hsb hvalid fun _ _ => getLsbD_setBit _ hb,
      bit_bitsDone hready hmode hrb hvalid fun _ hj => getLsbD_resetBit _ hb hj,
      bit_bitsDone hready hmode htb hvalid fun _ hj => getLsbD_testedBit _ hj,
      bit_bitsDone hready hmode hrvb hvalid fun _ hj => getLsbD_reverseLow _ hj⟩
  case invalid =>
    have hinvalid := (invalidBit_iff ..).2 hout
    simp only [List.forall_mem_cons, List.not_mem_nil, false_implies, implies_true, and_true]
    exact ⟨bit_invalidBitDone hready hmode hsb hinvalid, bit_invalidBitDone hready hmode hrb hinvalid,
      bit_invalidBitDone hready hmode htb hinvalid, bit_invalidBitDone hready hmode hrvb hinvalid⟩

end Sys2Proof.Machine
end

section
/-! PROOFS. An FP instruction at its end: the file its result goes to, what completing leaves beside it, and the flags
of FpEST (R283, R290, R291, R408). -/
namespace Sys2Proof.Machine

/-! ### The file of a result (R62, R283; log 18) -/

/-- The FPR file, or the GPR file in use. -/
def State.resultFile (s : State) (inFpr : Bool) : List RegBits := if inFpr then s.fpr else s.gpr

/-- The state with that file replaced. -/
def State.withResultFile (s : State) (inFpr : Bool) (f : List RegBits) : State :=
  if inFpr then { s with fpr := f } else s.withGpr f

/-- `OnlyFp` for either file: what a completing instruction with its result there may change. -/
def OnlyResultFile (s t : State) (inFpr : Bool) : Prop :=
  t = { s with
    banks := if inFpr then s.banks else s.banks.set s.bank t.gpr,
    fpr := if inFpr then t.fpr else s.fpr,
    est := t.est, ic := s.icNext, exc := t.exc, exi := t.exi, lastWord := t.lastWord, debugDue := t.debugDue }

theorem OnlyResultFile.cfg {s t : State} {inFpr : Bool} (h : OnlyResultFile s t inFpr) : t.cfg = s.cfg := by
  rw [h]

/-- An FP write replaces the file of the FP instructions. -/
theorem State.writeFp_eq (s : State) (n : Nat) {w : Nat} (v : BitVec w) :
    s.writeFp n v = s.withResultFile s.cfg.hasFpr (writeFile s.fpFile s.fpPart n v) := by
  unfold State.writeFp State.withResultFile State.fpFile State.fpPart
  split <;> rfl

/-- A write of the integer side replaces the file that holds the integer. -/
theorem State.writeInt_eq (s : State) (n : Nat) {w : Nat} (v : BitVec w) :
    s.writeInt n v = s.withResultFile s.intInFpr (writeFile s.intFile s.intPart n v) := by
  unfold State.writeInt State.withResultFile State.intFile State.intPart
  split <;> rfl

/-- The width of the registers of the FP instructions' file (R10, R23; log 41). -/
theorem State.fpPart_bounds {s : State} (h : s.cfg.inRange = true) : 0 < s.fpPart ∧ s.fpPart ≤ 1024 := by
  unfold State.fpPart
  split
  · obtain ⟨hmin, hmax⟩ := Config.fprWidth_bounds h ‹_›
    exact ⟨by omega, hmax⟩
  · simp only [Config.inRange, Bool.and_eq_true, decide_eq_true_eq] at h
    omega

/-- The width of the registers of the integer side's file. -/
theorem State.intPart_bounds {s : State} (h : s.cfg.inRange = true) : 0 < s.intPart ∧ s.intPart ≤ 1024 := by
  unfold State.intPart
  split
  case isTrue hint =>
    obtain ⟨hmin, hmax⟩ := Config.fprWidth_bounds h (Bool.and_eq_true_iff.1 hint).1
    exact ⟨by omega, hmax⟩
  case isFalse => exact visibleWidth_bounds s.cfg.gprWidth

/-! ### Completing (R408) -/

section
variable {s : State} (inFpr : Bool) (raised : List Exc) (flags : BitVec 16) (f : List RegBits)

/-- The state an instruction with its result in one of the two files completes with. -/
def State.afterFileResult (s : State) (inFpr : Bool) (raised : List Exc) (flags : BitVec 16) (f : List RegBits) :
    State :=
  (({ s.withResultFile inFpr f with est := withFlags s.est flags, ic := s.icNext } : State).mark raised).retire s

/-- An instruction none of whose exceptions is potent completes. -/
theorem State.complete_withResultFile {raised : List Exc} (h : NonePotent s raised) :
    s.complete raised flags (s.withResultFile inFpr f) = s.afterFileResult inFpr raised flags f := by
  have hnone : ¬raised.any s.potent = true := by simpa [NonePotent] using h
  rw [State.complete, if_neg hnone]
  cases inFpr <;> cases raised <;> rfl

theorem State.afterFileResult_resultFile (hbank : inFpr = false → s.bank < s.banks.length) :
    (s.afterFileResult inFpr raised flags f).resultFile inFpr = f := by
  cases inFpr with
  | true => simp [State.afterFileResult, State.resultFile, State.withResultFile]
  | false => exact State.afterResult_gpr raised flags f (hbank rfl)

theorem State.afterFileResult_only (hbank : inFpr = false → s.bank < s.banks.length) :
    OnlyResultFile s (s.afterFileResult inFpr raised flags f) inFpr := by
  cases inFpr with
  | true =>
    have hest : (s.afterFileResult true raised flags f).est = withFlags s.est flags := by simp [State.afterFileResult]
    have hfpr := State.afterFileResult_resultFile (s := s) true raised flags f nofun
    rw [State.resultFile, if_pos rfl] at hfpr
    rw [OnlyResultFile, hest, hfpr]
    cases raised <;> exact State.retire_frame _ _
  | false => exact State.afterResult_onlyGprs raised flags f (hbank rfl)

theorem State.afterFileResult_completed : Completed s (s.afterFileResult inFpr raised flags f) raised := by
  refine State.retire_completed s { s.withResultFile inFpr f with est := withFlags s.est flags, ic := s.icNext } raised
    ?_ ?_ ?_ ?_ <;> cases inFpr <;> rfl

theorem State.afterFileResult_estIs : EstIs s.est (s.afterFileResult inFpr raised flags f).est flags.getLsbD := by
  intro n
  simp [State.afterFileResult, withFlags_getLsbD]

end

/-- What an instruction that completes with the result `v` at `d` of one of the two files leaves. -/
def FileResultDone (s t : State) (inFpr : Bool) (part d : Nat) {w : Nat} (v : BitVec w) (raised : List Exc)
    (flags : Nat → Bool) : Prop :=
  OnlyResultFile s t inFpr ∧ FileUpdated (s.resultFile inFpr) (t.resultFile inFpr) part d v ∧ Completed s t raised
    ∧ EstIs s.est t.est flags

/-- An instruction whose checks pass completes with its result, where nothing it raised is potent. -/
theorem fileResultDone_of_guarded {s : State} {i : Instr} {checks : List (Bool × Exc)} {raised : List Exc}
    {flags : BitVec 16} {inFpr : Bool} {part d w : Nat} {v : BitVec w}
    (hexec : exec i s = .next (s.guarded true checks (s.complete raised flags
      (s.withResultFile inFpr (writeFile (s.resultFile inFpr) part d v)))))
    (hchecks : firstHit checks = none) (hnone : NonePotent s raised)
    (hbank : inFpr = false → s.bank < s.banks.length) (hpart : 0 < part ∧ part ≤ 1024)
    (hd : d < (s.resultFile inFpr).length) (hparts : partsNeeded part w ≤ (s.resultFile inFpr).length) :
    ∃ t, exec i s = .next t ∧ FileResultDone s t inFpr part d v raised flags.getLsbD := by
  rw [s.guarded_of_none _ _ _ hchecks, State.complete_withResultFile _ _ _ hnone] at hexec
  refine ⟨_, hexec, State.afterFileResult_only _ _ _ _ hbank, ?_, State.afterFileResult_completed _ _ _ _,
    State.afterFileResult_estIs _ _ _ _⟩
  rw [State.afterFileResult_resultFile _ _ _ _ hbank]
  exact fileWriteIsBitwise _ _ _ _ _ hpart.1 hpart.2 (List.ne_nil_of_length_pos (by omega)) hparts

/-- In the file of the FP instructions. -/
theorem FileResultDone.fp {s t : State} {d w : Nat} {v : BitVec w} {raised : List Exc} {flags : Nat → Bool}
    (h : FileResultDone s t s.cfg.hasFpr s.fpPart d v raised flags) :
    OnlyFp s t ∧ FileUpdated s.fpFile t.fpFile s.fpPart d v ∧ Completed s t raised ∧ EstIs s.est t.est flags := by
  obtain ⟨honly, hfile, hcompleted, hest⟩ := h
  refine ⟨honly, ?_, hcompleted, hest⟩
  rw [show t.fpFile = t.resultFile t.cfg.hasFpr from rfl, honly.cfg]
  exact hfile

/-- In the file that holds the integer of a conversion. -/
theorem FileResultDone.int {s t : State} {d w : Nat} {v : BitVec w} {raised : List Exc} {flags : Nat → Bool}
    (h : FileResultDone s t s.intInFpr s.intPart d v raised flags) :
    OnlyResultFile s t s.intInFpr ∧ FileUpdated s.intFile t.intFile s.intPart d v ∧ Completed s t raised
      ∧ EstIs s.est t.est flags := by
  obtain ⟨honly, hfile, hcompleted, hest⟩ := h
  refine ⟨honly, ?_, hcompleted, hest⟩
  rw [show t.intFile = t.resultFile t.intInFpr from rfl, State.intInFpr, honly.cfg]
  exact hfile

/-! ### The flags of FpEST and the set S (R291, R294) -/

/-- Rounding raises exceptions 13 to 15 alone (R290). -/
theorem raisedByRounding_subset (s : State) (r : Rounded) :
    raisedByRounding s r ⊆ [.fpOverflow, .fpUnderflow, .fpInexactResult] := by
  unfold raisedByRounding
  split_ifs <;> simp

/-- FP INVALID OPERATION and FP DENORMALIZED OPERAND are in the set S of R294 where they were found, and only there. -/
theorem contains_raisedByFp (s : State) (invalid denormal byZero : Bool) (r : Rounded) :
    (raisedByFp s invalid denormal byZero r).contains .fpInvalidOperation = invalid
      ∧ (raisedByFp s invalid denormal byZero r).contains .fpDenormalizedOperand = denormal := by
  have hinvalid : .fpInvalidOperation ∉ raisedByRounding s r := fun h => by simpa using raisedByRounding_subset s r h
  have hdenormal : .fpDenormalizedOperand ∉ raisedByRounding s r := fun h => by
    simpa using raisedByRounding_subset s r h
  constructor
  · cases invalid <;> cases byZero <;> simp [raisedByFp, hinvalid]
  · cases invalid <;> cases byZero <;> simp [raisedByFp, hdenormal]

/-- The set S of R294, by the statements' own description of it. -/
theorem State.fpRaised_eq (s : State) (k : FpWork) :
    s.fpRaised k = raisedByFp s k.invalid k.denormalOperand k.divisionByZero k.result := by
  rw [State.fpRaised, Rounded.Agrees.roundingRaised ⟨rfl, rfl, rfl⟩, raisedByFp]

/-- The flags of FpEST, bit by bit (R291). -/
theorem getLsbD_fpFlags (s : State) (f : FpFormat) (k : FpWork) :
    (fpFlags f k (s.fpRaised k)).getLsbD
      = fpBits f (s.fpRaised k) k.result.inexact k.zeroDivisor k.compare k.result.bits := by
  obtain ⟨hinvalid, hdenormal⟩ := contains_raisedByFp s k.invalid k.denormalOperand k.divisionByZero k.result
  rw [← State.fpRaised_eq] at hinvalid hdenormal
  funext n
  rw [fpFlags, EstFlags.getLsbD_bits]
  rcases Nat.lt_or_ge n 16 with hn | hn
  · interval_cases n <;> simp only [fpBits, hinvalid, hdenormal]
  · obtain ⟨j, rfl⟩ := Nat.exists_eq_add_of_le' hn
    rfl

/-- EST[15:0] alone is given by the flags. -/
theorem EstIs.congr {before after : Word} {flags flags' : Nat → Bool} (h : EstIs before after flags)
    (heq : ∀ n, n < 16 → flags n = flags' n) : EstIs before after flags' := by
  intro n
  rw [h n]
  split
  · exact heq n ‹_›
  · rfl

/-! ### An instruction with an FP result (R283, R290) -/

/-- An instruction with an FP result completes where its checks pass and nothing it raised is potent. -/
theorem fpDone_of_guarded {s : State} {i : Instr} {checks : List (Bool × Exc)} {f : FpFormat} {d : Nat}
    {regs : List Nat} (k : FpWork) (hexec : exec i s = .next (s.guarded true checks (finishFp f d k s)))
    (hchecks : firstHit checks = none) (hready : FpReady s f.width (d :: regs))
    (hnone : NonePotent s (raisedByFp s k.invalid k.denormalOperand k.divisionByZero k.result)) :
    ∃ t, exec i s = .next t
      ∧ FpDone s t d f k.result (raisedByFp s k.invalid k.denormalOperand k.divisionByZero k.result) k.zeroDivisor
          k.compare := by
  obtain ⟨hrange, hbank, -, -, hparts, hregs⟩ := hready
  rw [← State.fpRaised_eq] at hnone ⊢
  rw [finishFp, State.writeFp_eq] at hexec
  obtain ⟨t, ht, hdone⟩ := fileResultDone_of_guarded hexec hchecks hnone hbank (State.fpPart_bounds hrange)
    (hregs d List.mem_cons_self) hparts
  rw [getLsbD_fpFlags] at hdone
  exact ⟨t, ht, hdone.fp⟩

end Sys2Proof.Machine
end

section
/-! PROOFS. The FP instructions on FP registers complete: each does its work behind checks that pass, and ends as an FP
instruction does (R300 to R309, R315 to R319, R337, R338; the flags of FCMP: R305). -/
namespace Sys2Proof.Machine

/-! ### Sums and products (R300 to R302, R337, R338) -/

/-- The result of an FP operation without bits dropped (R284, R292). -/
theorem fpOutcome_false (s : State) (v : Option FpVal) : fpOutcome s v false = fpRoundedResult s s.cfg.fp v := by
  cases v <;> rfl

section
variable {s : State} {d r n : Nat}

/-- FADD, FSUB and FMUL on the exact result `v`. -/
theorem runFp2_done (h : FpReady s s.cfg.fp.width [d, r]) (v : Option FpVal) {i : Instr}
    (hexec : exec i s = .next (runFp2 d r v s))
    (hnone : NonePotent s
      (raisedByFp s v.isNone (s.fpDenormal d || s.fpDenormal r) false (fpRoundedResult s s.cfg.fp v))) :
    ∃ t, exec i s = .next t
      ∧ FpDone s t d s.cfg.fp (fpRoundedResult s s.cfg.fp v)
          (raisedByFp s v.isNone (s.fpDenormal d || s.fpDenormal r) false (fpRoundedResult s s.cfg.fp v)) false
          (fpCompare (s.fpValue d) (s.fpValue r)) := by
  rw [← fpOutcome_false] at hnone ⊢
  exact fpDone_of_guarded (twoOperandWork s d r v) hexec (h.firstHit_fpChecks_eq_none rfl) h hnone

/-- What FMAD and FMSU come to, with the exact result `v`. -/
def fusedWork (s : State) (d r n : Nat) (v : Option FpVal) : FpWork :=
  { twoOperandWork s d r v with denormalOperand := s.fpDenormal d || s.fpDenormal r || s.fpDenormal n }

/-- FMAD and FMSU are one operation on the exact product. -/
theorem runFpFused_eq (s : State) (d r n : Nat) (z : FpVal) :
    runFpFused d r n z s = s.guarded true (s.fpChecks true s.cfg.fp.width [d, r, n]) (finishFp s.cfg.fp d
      (fusedWork s d r n ((fpMul (s.fpValue d) (s.fpValue r)).bind fun p => fpAdd s.roundingMode p z)) s) := by
  rw [runFpFused]
  cases fpMul (s.fpValue d) (s.fpValue r) <;> rfl

/-- FMAD and FMSU on the exact result `v`. -/
theorem fpFused_done (h : FpReady s s.cfg.fp.width [d, r, n]) (v : Option FpVal) {i : Instr}
    (hexec : exec i s = .next (s.guarded true (s.fpChecks true s.cfg.fp.width [d, r, n])
      (finishFp s.cfg.fp d (fusedWork s d r n v) s)))
    (hnone : NonePotent s (raisedByFp s v.isNone (s.fpDenormal d || s.fpDenormal r || s.fpDenormal n) false
      (fpRoundedResult s s.cfg.fp v))) :
    ∃ t, exec i s = .next t
      ∧ FpDone s t d s.cfg.fp (fpRoundedResult s s.cfg.fp v)
          (raisedByFp s v.isNone (s.fpDenormal d || s.fpDenormal r || s.fpDenormal n) false
            (fpRoundedResult s s.cfg.fp v)) false
          (fpCompare (s.fpValue d) (s.fpValue r)) := by
  rw [← fpOutcome_false] at hnone ⊢
  exact fpDone_of_guarded (fusedWork s d r n v) hexec (h.firstHit_fpChecks_eq_none rfl) h hnone

end

/-- Settles O48: each of the five rounds its exact value once. -/
theorem fpSumsAndProductsComplete : Obligations.FpSumsAndProductsComplete := by
  intro d r n s
  refine ⟨fun h => ⟨?_, ?_, ?_⟩, fun h => ⟨?_, ?_⟩⟩
  · exact runFp2_done h _ rfl
  · exact runFp2_done h _ rfl
  · exact runFp2_done h _ rfl
  · exact fpFused_done h _ (congrArg _ (runFpFused_eq s d r n _))
  · exact fpFused_done h _ (congrArg _ (runFpFused_eq s d r n _))

/-! ### FDIV and FREM (R303, R304) -/

/-- FDIV with its result and with what its FP DIVISION BY ZERO stands for. -/
theorem fdiv_done {s : State} {d r : Nat} (h : FpReady s s.cfg.fp.width [d, r]) {byZero : Bool} {res : Rounded}
    (hbyZero : (divWork s d r).divisionByZero = byZero) (hres : (divWork s d r).result = res)
    (hnone : NonePotent s (raisedByFp s (fpDiv s.cfg.fp (s.fpValue d) (s.fpValue r)).isNone
      (s.fpDenormal d || s.fpDenormal r) byZero res)) :
    ∃ t, exec (.fdiv d r) s = .next t
      ∧ FpDone s t d s.cfg.fp res
          (raisedByFp s (fpDiv s.cfg.fp (s.fpValue d) (s.fpValue r)).isNone (s.fpDenormal d || s.fpDenormal r) byZero
            res)
          (s.fpValue r).isZero (fpCompare (s.fpValue d) (s.fpValue r)) := by
  subst hbyZero hres
  exact fpDone_of_guarded (divWork s d r) rfl (h.firstHit_fpChecks_eq_none rfl) h hnone

/-- FREM, whose result is exact. -/
theorem frem_done {s : State} {d r : Nat} (h : FpReady s s.cfg.fp.width [d, r]) {res : Rounded}
    (hres : (remWork s d r).result = res)
    (hnone : NonePotent s (raisedByFp s (fpRem (s.fpValue d) (s.fpValue r)).isNone
      (s.fpDenormal d || s.fpDenormal r) false res)) :
    ∃ t, exec (.frem d r) s = .next t
      ∧ FpDone s t d s.cfg.fp res
          (raisedByFp s (fpRem (s.fpValue d) (s.fpValue r)).isNone (s.fpDenormal d || s.fpDenormal r) false res)
          false (fpCompare (s.fpValue d) (s.fpValue r)) := by
  subst hres
  exact fpDone_of_guarded (remWork s d r) rfl (h.firstHit_fpChecks_eq_none rfl) h hnone

/-- Settles O49: FDIV ends with the work of `divWork`, where only a finite number by zero is a division by zero, and
FREM with that of `remWork`. -/
theorem fpDivRemComplete : Obligations.FpDivRemComplete := by
  intro d r s h
  refine ⟨fdiv_done h ?byZero ?quotient, frem_done h ?remainder⟩
  case byZero =>
    rw [divWork]
    cases s.fpValue d <;> cases s.fpValue r <;> rfl
  case quotient =>
    rw [divWork]
    cases fpDiv s.cfg.fp (s.fpValue d) (s.fpValue r) <;> rfl
  case remainder => rw [remWork, fpOutcome_false]

/-! ### FCMP (R305) -/

/-- The low half of EST is the flags just written. -/
theorem EstIs.setWidth_eq {before after : Word} {flags : BitVec 16} (h : EstIs before after flags.getLsbD) :
    after.setWidth 16 = flags := by
  refine BitVec.eq_of_getLsbD_eq fun n hn => ?_
  rw [BitVec.getLsbD_setWidth, decide_eq_true hn, Bool.true_and, h n, if_pos hn]

/-- Settles O50: FCMP writes its flags to EST and to its destination. -/
theorem fpCompareCompletes : Obligations.FpCompareCompletes := by
  intro d r s h x y signaling denormal raised hnone
  have ⟨hrange, hbank, _, _, hparts, hregs⟩ := h
  have hexec : exec (.fcmp d r) s = .next (s.guarded true (s.fpChecks true (max s.cfg.fp.width 16) [d, r])
      (s.complete (compareRaised s d r) (compareFlags s d r) (s.writeFp d (compareFlags s d r)))) := rfl
  rw [State.writeFp_eq] at hexec
  have hwidth : partsNeeded s.fpPart 16 ≤ s.fpFile.length := (partsNeeded_mono _ (le_max_right ..)).trans hparts
  obtain ⟨t, ht, hdone⟩ := fileResultDone_of_guarded hexec (h.firstHit_fpChecks_eq_none rfl) hnone hbank
    (State.fpPart_bounds hrange) (hregs d List.mem_cons_self) hwidth
  obtain ⟨honly, hfile, hcompleted, hest⟩ := hdone.fp
  refine ⟨t, ht, honly, hcompleted, ?_, ?_⟩
  · refine hest.congr fun n hn => ?_
    rw [compareFlags, EstFlags.getLsbD_bits]
    interval_cases n <;> rfl
  · rwa [hest.setWidth_eq]

/-! ### FSQR, FABS, FNEG and FRND (R306 to R309) -/

section
variable {s : State} {d : Nat}

/-- A one-operand instruction with its result. -/
theorem runFp1_done (h : FpReady s s.cfg.fp.width [d]) (invalid : Bool) {result res : Rounded} (hres : result = res)
    {i : Instr} (hexec : exec i s = .next (runFp1 d invalid result s))
    (hnone : NonePotent s (raisedByFp s invalid (s.fpDenormal d) false res)) :
    ∃ t, exec i s = .next t
      ∧ FpDone s t d s.cfg.fp res (raisedByFp s invalid (s.fpDenormal d) false res) false none := by
  subst hres
  exact fpDone_of_guarded (oneOperandWork s d invalid result) hexec (h.firstHit_fpChecks_eq_none rfl) h hnone

/-- FABS and FNEG put a sign above the other bits of the operand. -/
theorem withSign_eq (s : State) (d : Nat) (neg : Bool) :
    withSign s d neg = if (s.fpValue d).isSignaling then { bits := quietNan s.cfg.fp }
      else { bits := s.fpOperand d % 2 ^ (s.cfg.fp.width - 1) + if neg then 2 ^ (s.cfg.fp.width - 1) else 0 } := by
  have hwidth : s.cfg.fp.width - 1 = s.cfg.fp.expBits + s.cfg.fp.manBits := by rw [FpFormat.width]; omega
  rw [withSign, signPattern, hwidth, Nat.add_comm]
  cases neg <;> simp

end

/-- Settles O51: the four results, and the end of a one-operand instruction. -/
theorem fpOneOperandComplete : Obligations.FpOneOperandComplete := by
  intro d s h
  dsimp only
  simp only [List.forall_mem_cons, List.not_mem_nil, false_implies, implies_true, and_true]
  refine ⟨runFp1_done h _ ?root rfl, runFp1_done h _ ?abs rfl, runFp1_done h _ ?neg rfl, runFp1_done h _ ?whole rfl⟩
  case root => cases fpSqrt s.cfg.fp (s.fpValue d) <;> rfl
  case abs => exact withSign_eq s d false
  case neg =>
    rw [withSign_eq]
    cases fpSign s.cfg.fp (s.fpOperand d) <;> rfl
  case whole => rfl

/-! ### Format conversions (R315 to R319) -/

/-- The format of a mode has the mode's width (R281). -/
theorem width_modeFormat (d : Nat) : ∀ q ∈ formatForms d, (modeFormat q.2.2).width = q.2.2.width := by
  simp only [formatForms, List.forall_mem_cons, List.not_mem_nil, false_implies, implies_true, and_true]
  and_intros <;> rfl

/-- Settles O54: FEXT ends with a result in the FP format, FSQZ with one in the narrower. -/
theorem fpFormatConversionsComplete : Obligations.FpFormatConversionsComplete := by
  intro d s h q hq hformat hwidth
  obtain ⟨hext, hsqz⟩ := exec_formatForms s d q hq
  have hchecks : firstHit (s.fpChecks (s.convertsFormat q.2.2) s.cfg.fp.width [d]) = none :=
    h.firstHit_fpChecks_eq_none (by simp [State.convertsFormat, hformat, hwidth])
  have hnarrow : FpReady s (modeFormat q.2.2).width [d] :=
    h.mono ((width_modeFormat d q hq).trans_le hwidth) (List.Subset.refl _)
  exact ⟨fpDone_of_guarded _ hext hchecks h, fpDone_of_guarded _ hsqz hchecks hnarrow⟩

end Sys2Proof.Machine
end

section
/-! PROOFS. The conversions between integers and FP numbers complete (R310, R311), with the integer in the file that
holds it (N20; log 18). -/
namespace Sys2Proof.Machine

/-! ### FI2F (R311) -/

/-- Settles O53: FI2F rounds its integer, behind the checks of a conversion. -/
theorem integerToFpCompletes : Obligations.IntegerToFpCompletes := by
  intro m u d s h hmode hparts hd
  exact fpDone_of_guarded { result := _ } rfl (h.firstHit_convertChecks_eq_none hmode hparts hd) h

/-! ### FF2I (R310) -/

/-- Settles O52: FF2I writes its integer, or keeps the destination where there is none in range. -/
theorem fpToIntegerCompletes : Obligations.FpToIntegerCompletes := by
  intro m u d s h hmode hbank hparts hd
  have ⟨hrange, _⟩ := h
  have hchecks := h.firstHit_convertChecks_eq_none hmode hparts hd
  have hexec : exec (.ff2i m u d) s = .next (runFf2i m u d s) := rfl
  dsimp only
  simp only [← representable_iff]
  refine ⟨fun n inexact hint hn hnone => ?valid, fun hout hnone => ?invalid⟩
  case valid =>
    rw [runFf2i, convertedInt_of_representable hint hn] at hexec
    dsimp only at hexec
    rw [State.writeInt_eq] at hexec
    obtain ⟨t, ht, hdone⟩ := fileResultDone_of_guarded hexec hchecks hnone (fun _ => hbank)
      (State.intPart_bounds hrange) hd hparts
    obtain ⟨honly, hfile, hcompleted, hest⟩ := hdone.int
    refine ⟨t, ht, honly, hcompleted, hfile, hest.congr fun k hk => ?_⟩
    rw [EstFlags.getLsbD_bits]
    interval_cases k <;> rfl
  case invalid =>
    rw [runFf2i, convertedInt_eq_none hout, s.guarded_of_none _ _ _ hchecks] at hexec
    have hwritten := State.complete_withGpr (EstFlags.bits { invalid := true }) s.gpr hnone
    rw [State.withGpr_gpr hbank] at hwritten
    refine ⟨_, hexec.trans (congrArg _ hwritten), State.afterResult_of_keepsGprs _ hbank (List.cons_ne_nil _ _),
      State.afterResult_completed _ _ _, (State.afterResult_estIs _ _ _).congr fun k hk => ?_⟩
    rw [EstFlags.getLsbD_bits]
    interval_cases k <;> rfl

end Sys2Proof.Machine
end

section
/-! PROOFS. The quotient and the square root are the exact ones cut off, with the sticky bit telling the cut (R303,
R306). -/
namespace Sys2Proof.Machine

/-! ### The quotient -/

/-- A quotient with `k` bits more than the divisor's length has `k` bits or more. -/
theorem two_pow_le_div {sx sy : Nat} (k : Nat) (hx : 0 < sx) (hy : 0 < sy) :
    2 ^ k ≤ sx * 2 ^ (k + 1 + Nat.log2 sy) / sy := by
  rw [Nat.le_div_iff_mul_le hy]
  calc 2 ^ k * sy ≤ 2 ^ k * 2 ^ (Nat.log2 sy + 1) := Nat.mul_le_mul_left _ Nat.lt_log2_self.le
    _ = 1 * 2 ^ (k + 1 + Nat.log2 sy) := by rw [← pow_add, one_mul]; ring_nf
    _ ≤ sx * 2 ^ (k + 1 + Nat.log2 sy) := Nat.mul_le_mul_right _ hx

/-- A quotient is exact when nothing remains. -/
theorem mod_bne_zero_eq_false_iff (a b : Nat) : (a % b != 0) = false ↔ a / b * b = a := by
  rw [bne_eq_false_iff_eq, ← Nat.dvd_iff_mod_eq_zero, Nat.dvd_iff_div_mul_eq]

/-! ### The square root -/

/-- The root found bit by bit from above, between the squares that enclose the number. -/
theorem sqrtFrom_bounds {n k r : Nat} (hlow : r * r ≤ n) (hhigh : n < (r + 2 ^ k) * (r + 2 ^ k)) :
    sqrtFrom n k r * sqrtFrom n k r ≤ n ∧ n < (sqrtFrom n k r + 1) * (sqrtFrom n k r + 1) := by
  induction k generalizing r with
  | zero => exact ⟨hlow, hhigh⟩
  | succ k ih =>
    rw [sqrtFrom]
    split
    case isTrue hbit => exact ih hbit (by rwa [Nat.add_assoc, ← Nat.two_mul, Nat.mul_comm 2, ← pow_succ])
    case isFalse hbit => exact ih hlow (Nat.lt_of_not_le hbit)

/-- The largest integer whose square is at most `n`. -/
theorem natSqrt_bounds (n : Nat) : natSqrt n * natSqrt n ≤ n ∧ n < (natSqrt n + 1) * (natSqrt n + 1) := by
  refine sqrtFrom_bounds (Nat.zero_le n) ?_
  rw [Nat.zero_add, ← pow_add]
  exact Nat.lt_log2_self.trans_le (Nat.pow_le_pow_right two_pos (by omega))

theorem le_natSqrt {m n : Nat} (h : m * m ≤ n) : m ≤ natSqrt n :=
  Nat.lt_succ_iff.1 (Nat.mul_self_lt_mul_self_iff.1 (h.trans_lt (natSqrt_bounds n).2))

/-- An exponent made even and lowered by `2 * p`, its half being the exponent of the root. -/
theorem two_zpow_eq_root_sq (ex : Int) (p : Nat) :
    (2 : ℚ) ^ ex = 2 ^ (ex % 2).toNat * 4 ^ p * (2 ^ ((ex - (ex % 2).toNat) / 2 - p)) ^ 2 := by
  have hexp : ex = (ex % 2).toNat + (2 * p : Nat) + ((ex - (ex % 2).toNat) / 2 - p) * (2 : Nat) := by
    push_cast
    omega
  conv_lhs => rw [hexp]
  rw [zpow_add₀ two_ne_zero, zpow_add₀ two_ne_zero, zpow_mul, zpow_natCast, zpow_natCast, zpow_natCast, pow_mul]
  norm_num

/-- The square root of a positive number is that of its significand as an integer, cut. -/
theorem fpSqrt_finite (f : FpFormat) {sig : Nat} (exp : Int) (hsig : 0 < sig) :
    ∃ r e sticky, fpSqrt f (.finite false sig exp) = some (.finite false r e, sticky)
      ∧ 2 ^ (f.manBits + 2) ≤ r
      ∧ ((r : ℚ) * 2 ^ e) ^ 2 ≤ (sig : ℚ) * 2 ^ exp ∧ (sig : ℚ) * 2 ^ exp < (((r : ℚ) + 1) * 2 ^ e) ^ 2
      ∧ (sticky = false ↔ ((r : ℚ) * 2 ^ e) ^ 2 = (sig : ℚ) * 2 ^ exp) := by
  obtain ⟨hlow, hhigh⟩ := natSqrt_bounds (sig * 2 ^ (exp % 2).toNat * 4 ^ (f.manBits + 3))
  have hlong : 2 ^ (f.manBits + 2) ≤ natSqrt (sig * 2 ^ (exp % 2).toNat * 4 ^ (f.manBits + 3)) := by
    refine le_natSqrt ?_
    calc 2 ^ (f.manBits + 2) * 2 ^ (f.manBits + 2) = 4 ^ (f.manBits + 2) := (mul_pow 2 2 _).symm
      _ ≤ 4 ^ (f.manBits + 3) := Nat.pow_le_pow_right (by norm_num) (by omega)
      _ ≤ sig * 2 ^ (exp % 2).toNat * 4 ^ (f.manBits + 3) :=
        Nat.le_mul_of_pos_left _ (Nat.mul_pos hsig (Nat.two_pow_pos _))
  have hunit : (0 : ℚ) < (2 ^ ((exp - (exp % 2).toNat) / 2 - (f.manBits + 3 : Nat))) ^ 2 := by positivity
  have hvalue : (sig : ℚ) * 2 ^ exp = (sig * 2 ^ (exp % 2).toNat * 4 ^ (f.manBits + 3) : Nat)
      * (2 ^ ((exp - (exp % 2).toNat) / 2 - (f.manBits + 3 : Nat))) ^ 2 := by
    rw [two_zpow_eq_root_sq exp (f.manBits + 3)]
    push_cast
    ring
  refine ⟨_, _, _, rfl, hlong, ?_⟩
  rw [hvalue, mul_pow, mul_pow, mul_le_mul_iff_of_pos_right hunit, mul_lt_mul_iff_of_pos_right hunit,
    mul_left_inj' hunit.ne', bne_eq_false_iff_eq]
  generalize sig * 2 ^ (exp % 2).toNat * 4 ^ (f.manBits + 3) = n at hlow hhigh ⊢
  simp only [sq]
  exact ⟨by exact_mod_cast hlow, by exact_mod_cast hhigh, by norm_cast⟩

/-- Settles O58: the quotient is a division with remainder, the root an integer square root. -/
theorem quotientAndRootAreCutExactly : Obligations.QuotientAndRootAreCutExactly := by
  intro f x y sx sy ex ey hx hy
  refine ⟨?quotient, fpSqrt_finite f ex hx⟩
  case quotient =>
    have hk : f.manBits + 3 + Nat.log2 sy + 1 = f.manBits + 4 + Nat.log2 sy := by omega
    refine ⟨sx * 2 ^ (f.manBits + 4 + Nat.log2 sy) / sy, sx * 2 ^ (f.manBits + 4 + Nat.log2 sy) % sy != 0, ?_, ?_,
      Nat.div_mul_le_self _ _, ?_, mod_bne_zero_eq_false_iff _ _⟩
    · simp only [fpDiv, hk]
    · exact (Nat.pow_le_pow_right two_pos (by omega)).trans (two_pow_le_div (f.manBits + 3) hx hy)
    · exact (Nat.lt_mul_div_succ _ hy).trans_eq (Nat.mul_comm ..)

end Sys2Proof.Machine
end

section
/-! PROOFS. The FP operations before rounding are those of the rational numbers, with the signs of zeros and the results
on infinities and NaNs that the rules name (R289, R291, R300 to R306). -/
namespace Sys2Proof.Machine

/-! ### The rational value of a number (R286) -/

/-- A number is a zero or has a significand that is not 0. -/
theorem FpVal.isNumber_cases {a : FpVal} (h : a.isNumber = true) :
    (∃ x, a = .zero x) ∨ ∃ x sig exp, a = .finite x sig exp ∧ 0 < sig := by
  cases a with
  | zero x => exact .inl ⟨x, rfl⟩
  | finite x sig exp => exact .inr ⟨x, sig, exp, rfl, Nat.pos_of_ne_zero (bne_iff_ne.1 h)⟩
  | infinite => cases h
  | nan => cases h

section
variable (x : Bool) {sig : Nat} (exp : Int)

/-- A finite number is below zero where its sign says so, and above zero else. -/
theorem toRat_finite_sign (hsig : 0 < sig) :
    if x then (FpVal.finite x sig exp).toRat < 0 else 0 < (FpVal.finite x sig exp).toRat := by
  have hsig : (0 : ℚ) < sig := by exact_mod_cast hsig
  have hpos : (0 : ℚ) < sig * 2 ^ exp := by positivity
  cases x
  · simpa [FpVal.toRat] using hpos
  · simpa [FpVal.toRat] using hpos

theorem toRat_finite_ne_zero (hsig : 0 < sig) : (FpVal.finite x sig exp).toRat ≠ 0 := by
  have hsign := toRat_finite_sign x exp hsig
  split at hsign
  · exact hsign.ne
  · exact hsign.ne'

/-- The value with its significand at a lower exponent. -/
theorem toRat_finite_at {e : Int} (sig : Nat) (he : e ≤ exp) :
    (FpVal.finite x sig exp).toRat = (signedAt x sig exp e : ℚ) * 2 ^ e := by
  have hexp : (2 : ℚ) ^ exp = 2 ^ (exp - e).toNat * 2 ^ e := by
    rw [← zpow_natCast, ← zpow_add₀ two_ne_zero]
    congr 1
    omega
  rw [FpVal.toRat, signedAt, hexp]
  cases x <;> simp [mul_assoc]

end

/-- The value of a signed integer times a power of two (R286). -/
theorem ofSigned_toRat (r e : Int) (zeroNeg : Bool) : (ofSigned r e zeroNeg).toRat = (r : ℚ) * 2 ^ e := by
  rw [ofSigned]
  split
  case isTrue hzero => simp [hzero, FpVal.toRat]
  case isFalse =>
    rcases lt_or_gt_of_ne ‹¬r = 0› with hneg | hpos
    · simp [FpVal.toRat, hneg, abs_of_neg]
    · simp [FpVal.toRat, hpos.not_gt, abs_of_pos hpos]

theorem ofSigned_isNumber (r e : Int) (zeroNeg : Bool) : (ofSigned r e zeroNeg).isNumber = true := by
  rw [ofSigned]
  split
  · rfl
  · simpa [FpVal.isNumber] using ‹¬r = 0›

/-- An exact zero has the sign asked for. -/
theorem ofSigned_negative {r e : Int} (zeroNeg : Bool) (h : (ofSigned r e zeroNeg).toRat = 0) :
    (ofSigned r e zeroNeg).negative = zeroNeg := by
  have hexp : (2 : ℚ) ^ e ≠ 0 := by positivity
  rw [ofSigned_toRat, mul_eq_zero_iff_right hexp, Int.cast_eq_zero] at h
  rw [ofSigned, if_pos h]
  rfl

/-! ### Sum, product, negation and order of two numbers (R300 to R302, R305) -/

section
variable {a b : FpVal} (ha : a.isNumber = true) (hb : b.isNumber = true)
include ha hb

/-- The sum is exact; only a zero sum's sign is a matter of the mode, unless both are zeros of one sign. -/
theorem fpAdd_exact (mode : RoundingMode) :
    ∃ v, fpAdd mode a b = some v ∧ v.isNumber = true ∧ v.toRat = a.toRat + b.toRat
      ∧ (a.toRat + b.toRat = 0 → v.negative =
          if a.isZero && b.isZero && a.negative == b.negative then a.negative else mode == .negative) := by
  rcases FpVal.isNumber_cases ha with ⟨x, rfl⟩ | ⟨x, sx, ex, rfl, hsx⟩ <;>
    rcases FpVal.isNumber_cases hb with ⟨y, rfl⟩ | ⟨y, sy, ey, rfl, hsy⟩
  · refine ⟨_, rfl, rfl, (add_zero 0).symm, fun _ => ?_⟩
    cases x <;> cases y <;> rfl
  · exact ⟨_, rfl, hb, (zero_add _).symm,
      fun h => absurd ((zero_add _).symm.trans h) (toRat_finite_ne_zero y ey hsy)⟩
  · exact ⟨_, rfl, ha, (add_zero _).symm,
      fun h => absurd ((add_zero _).symm.trans h) (toRat_finite_ne_zero x ex hsx)⟩
  · have hsum : (ofSigned (signedAt x sx ex (min ex ey) + signedAt y sy ey (min ex ey)) (min ex ey)
        (mode == .negative)).toRat = (FpVal.finite x sx ex).toRat + (FpVal.finite y sy ey).toRat := by
      rw [ofSigned_toRat, toRat_finite_at x ex sx (min_le_left ex ey), toRat_finite_at y ey sy (min_le_right ex ey)]
      push_cast
      ring
    exact ⟨_, rfl, ofSigned_isNumber _ _ _, hsum, fun h => ofSigned_negative _ (hsum.trans h)⟩

/-- The product is exact and has the XOR of the signs. -/
theorem fpMul_exact :
    ∃ v, fpMul a b = some v ∧ v.isNumber = true ∧ v.toRat = a.toRat * b.toRat
      ∧ v.negative = (a.negative != b.negative) := by
  rcases FpVal.isNumber_cases ha with ⟨x, rfl⟩ | ⟨x, sx, ex, rfl, hsx⟩ <;>
    rcases FpVal.isNumber_cases hb with ⟨y, rfl⟩ | ⟨y, sy, ey, rfl, hsy⟩
  · exact ⟨_, rfl, rfl, (zero_mul _).symm, rfl⟩
  · exact ⟨_, rfl, rfl, (zero_mul _).symm, rfl⟩
  · exact ⟨_, rfl, rfl, (mul_zero _).symm, rfl⟩
  · refine ⟨_, rfl, bne_iff_ne.2 (Nat.mul_pos hsx hsy).ne', ?_, rfl⟩
    simp only [FpVal.toRat, zpow_add₀ (two_ne_zero (α := ℚ)), Nat.cast_mul]
    cases x <;> cases y <;> simp <;> ring

/-- The order is that of the values; the two zeros are equal. -/
theorem fpCompare_exact : fpCompare a b = some (compare a.toRat b.toRat) := by
  rcases FpVal.isNumber_cases ha with ⟨x, rfl⟩ | ⟨x, sx, ex, rfl, hsx⟩ <;>
    rcases FpVal.isNumber_cases hb with ⟨y, rfl⟩ | ⟨y, sy, ey, rfl, hsy⟩
  · rfl
  · have hsign := toRat_finite_sign y ey hsy
    cases y
    · exact congrArg some (compare_lt_iff_lt.2 hsign).symm
    · exact congrArg some (compare_gt_iff_gt.2 hsign).symm
  · have hsign := toRat_finite_sign x ex hsx
    cases x
    · exact congrArg some (compare_gt_iff_gt.2 hsign).symm
    · exact congrArg some (compare_lt_iff_lt.2 hsign).symm
  · have hmono : StrictMono fun k : Int => (k : ℚ) * 2 ^ min ex ey :=
      fun _ _ h => mul_lt_mul_of_pos_right (by exact_mod_cast h) (by positivity)
    rw [toRat_finite_at x ex sx (min_le_left ex ey), toRat_finite_at y ey sy (min_le_right ex ey), ← cmp_eq_compare,
      hmono.cmp_map_eq, cmp_eq_compare]
    rfl

end

theorem fpNegate_toRat (a : FpVal) : (fpNegate a).toRat = -a.toRat := by
  cases a with
  | finite x s e => cases x <;> simp [fpNegate, FpVal.toRat]
  | zero => simp [fpNegate, FpVal.toRat]
  | infinite => simp [fpNegate, FpVal.toRat]
  | nan => simp [fpNegate, FpVal.toRat]

theorem fpNegate_negative {a : FpVal} (ha : a.isNumber = true) : (fpNegate a).negative = !a.negative := by
  rcases FpVal.isNumber_cases ha with ⟨x, rfl⟩ | ⟨x, sx, ex, rfl, -⟩ <;> rfl

/-! ### The remainder (R304, D31) -/

/-- The nearest multiple is at most half the divisor away, and on a tie it is the even one. -/
theorem nearestQuotient_near (a : Nat) {b : Nat} (hb : 0 < b) :
    ((a : Int) - (b * nearestQuotient a b : Nat)).natAbs * 2 ≤ b
      ∧ (((a : Int) - (b * nearestQuotient a b : Nat)).natAbs * 2 = b → nearestQuotient a b % 2 = 0) := by
  have hlt := Nat.mod_lt a hb
  have hdiv : (a : Int) = b * (a / b : Nat) + (a % b : Nat) := by exact_mod_cast (Nat.div_add_mod a b).symm
  rw [nearestQuotient, hdiv]
  generalize a / b = q, a % b = r at hlt
  have hbelow : (b * q + r : Int) - (b * q : Nat) = r := by push_cast; ring
  have habove : (b * q + r : Int) - (b * (q + 1) : Nat) = r - b := by push_cast; ring
  split_ifs
  · rw [hbelow]
    omega
  · rw [habove]
    omega
  · rcases Nat.mod_two_eq_zero_or_one q with heven | hodd
    · rw [heven, Nat.add_zero, hbelow]
      omega
    · rw [hodd, habove]
      omega

/-- A remainder of significands, with the signs and the exponent put back: `A` less the nearest multiple of `B`. -/
theorem ofSigned_remainder {A B k : Nat} {r e : Int} {x y : Bool} {v : FpVal} {b : ℚ} (hr : r = A - (B * k : Nat))
    (hv : v = ofSigned (if x then -r else r) e x) (hb : b = ((if y then -B else B : Int) : ℚ) * 2 ^ e)
    (hnear : r.natAbs * 2 ≤ B) (htie : r.natAbs * 2 = B → k % 2 = 0) :
    ∃ n : Int, v.toRat = ((if x then -A else A : Int) : ℚ) * 2 ^ e - b * n
      ∧ |v.toRat| * 2 ≤ |b| ∧ (|v.toRat| * 2 = |b| → n % 2 = 0) := by
  have hexp : (0 : ℚ) < 2 ^ e := by positivity
  have hvAbs : |v.toRat| = (r.natAbs : ℚ) * 2 ^ e := by
    rw [hv, ofSigned_toRat, abs_mul, abs_of_pos hexp, Nat.cast_natAbs]
    cases x <;> simp
  have hbAbs : |b| = B * 2 ^ e := by
    rw [hb, abs_mul, abs_of_pos hexp]
    cases y <;> simp
  rw [hvAbs, hbAbs, mul_right_comm, mul_le_mul_iff_of_pos_right hexp, mul_left_inj' hexp.ne']
  refine ⟨if x = y then k else -k, ?value, by exact_mod_cast hnear, fun h => ?even⟩
  case value =>
    rw [hv, hb, hr, ofSigned_toRat]
    cases x <;> cases y <;> push_cast <;> simp <;> ring
  case even =>
    have hk := htie (by exact_mod_cast h)
    split <;> omega

/-- The remainder is the exact difference to the nearest multiple of the divisor. -/
theorem fpRem_exact {a b : FpVal} (ha : a.isNumber = true) (hb : b.isNumber = true) (hne : b.toRat ≠ 0) :
    ∃ v, ∃ n : Int, fpRem a b = some v ∧ v.isNumber = true ∧ v.toRat = a.toRat - b.toRat * n
      ∧ |v.toRat| * 2 ≤ |b.toRat| ∧ (|v.toRat| * 2 = |b.toRat| → n % 2 = 0)
      ∧ (v.toRat = 0 → v.negative = a.negative) := by
  rcases FpVal.isNumber_cases hb with ⟨y, rfl⟩ | ⟨y, sy, ey, rfl, hsy⟩
  · exact absurd rfl hne
  rcases FpVal.isNumber_cases ha with ⟨x, rfl⟩ | ⟨x, sx, ex, rfl, hsx⟩
  · refine ⟨.zero x, 0, rfl, rfl, ?_, ?_, fun _ => rfl, fun _ => rfl⟩
    · simp [FpVal.toRat]
    · simp [FpVal.toRat]
  have hdivisor : 0 < sy * 2 ^ (ey - min ex ey).toNat := Nat.mul_pos hsy (Nat.two_pow_pos _)
  obtain ⟨hnear, htie⟩ := nearestQuotient_near (sx * 2 ^ (ex - min ex ey).toNat) hdivisor
  obtain ⟨n, hv, hhalf, heven⟩ := ofSigned_remainder (x := x) (y := y) (e := min ex ey) rfl rfl rfl hnear htie
  rw [toRat_finite_at x ex sx (min_le_left ex ey), toRat_finite_at y ey sy (min_le_right ex ey)]
  exact ⟨_, n, rfl, ofSigned_isNumber _ _ _, hv, hhalf, heven, fun h => ofSigned_negative x h⟩

/-! ### NaNs, infinities and zeros as divisors -/

section
variable (f : FpFormat) (mode : RoundingMode) {a b : FpVal} (x y : Bool)

/-- A NaN operand is invalid and unordered (R289, R291). -/
theorem operations_nan (h : a.isNan = true ∨ b.isNan = true) :
    fpAdd mode a b = none ∧ fpMul a b = none ∧ fpDiv f a b = none ∧ fpRem a b = none ∧ fpCompare a b = none := by
  have hnan {v : FpVal} (hv : v.isNan = true) : ∃ q, v = .nan q := by
    cases v with
    | nan q => exact ⟨q, rfl⟩
    | _ => cases hv
  rcases h with h | h
  · obtain ⟨q, rfl⟩ := hnan h
    exact ⟨rfl, rfl, rfl, rfl, rfl⟩
  · obtain ⟨q, rfl⟩ := hnan h
    cases a <;> exact ⟨rfl, rfl, rfl, rfl, rfl⟩

theorem operations_infinities :
    fpAdd mode (.infinite x) (.infinite y) = (if x = y then some (.infinite x) else none)
      ∧ fpMul (.infinite x) (.infinite y) = some (.infinite (x != y))
      ∧ fpDiv f (.infinite x) (.infinite y) = none ∧ fpRem (.infinite x) (.infinite y) = none
      ∧ fpCompare (.infinite x) (.infinite y) = some (if x = y then .eq else if x then .lt else .gt)
      ∧ fpNegate (.infinite x) = .infinite (!x) :=
  ⟨rfl, rfl, rfl, rfl, rfl, rfl⟩

end

/-- Settles O55: the operations on two numbers, on a NaN, on two infinities, on a number and an infinity or a zero, and
the roots that are exact. -/
theorem fpOperationsAreExact : Obligations.FpOperationsAreExact := by
  intro f mode a b x y
  refine ⟨fun ha hb => ?numbers, operations_nan f mode, operations_infinities f mode x y, fun ha => ?mixed, rfl, rfl,
    rfl, rfl⟩
  case numbers =>
    exact ⟨fpAdd_exact ha hb mode, fpMul_exact ha hb, fpNegate_toRat a, fpNegate_negative ha, fpCompare_exact ha hb,
      fpRem_exact ha hb⟩
  case mixed =>
    rcases FpVal.isNumber_cases ha with ⟨z, rfl⟩ | ⟨z, sig, exp, rfl, hsig⟩
    · exact ⟨rfl, rfl, rfl, rfl, rfl, rfl, rfl, rfl, rfl, rfl, rfl, fun _ => rfl, fun h => absurd rfl h,
        fun h => absurd h (lt_irrefl 0)⟩
    · have hne := toRat_finite_ne_zero z exp hsig
      have hsign := toRat_finite_sign z exp hsig
      refine ⟨rfl, rfl, (if_neg hne).symm, (if_neg hne).symm, rfl, rfl, rfl, rfl, rfl, rfl, rfl, fun h => absurd h hne,
        fun _ => ⟨rfl, rfl⟩, fun h => ?_⟩
      cases z
      · exact absurd h hsign.not_gt
      · rfl

end Sys2Proof.Machine
end

section
/-! PROOFS. A number that a format holds rounds to itself there and in a wider format; the other classes round to their
patterns (R284, R286, R292, R316). -/
namespace Sys2Proof.Machine

/-! ### The pattern of a value (R281, R286) -/

/-- A pattern is its sign bit, its exponent field and its mantissa field. -/
theorem eq_fields {f : FpFormat} {v : Nat} (hv : v < 2 ^ f.width) :
    v = signPattern f (fpSign f v) + (fpExpField f v * 2 ^ f.manBits + fpManField f v) := by
  have hbit : v / 2 ^ (f.expBits + f.manBits) < 2 := by
    rw [Nat.div_lt_iff_lt_mul (Nat.two_pow_pos _), ← pow_succ']
    rwa [FpFormat.width, Nat.add_assoc, Nat.add_comm] at hv
  have hsign : (fpSign f v).toNat = v / 2 ^ (f.expBits + f.manBits) := by
    rw [fpSign]
    generalize v / 2 ^ (f.expBits + f.manBits) = b at hbit ⊢
    interval_cases b <;> rfl
  have hlow : fpExpField f v * 2 ^ f.manBits + fpManField f v = v % 2 ^ (f.expBits + f.manBits) := by
    rw [fpExpField, fpManField, Nat.add_comm f.expBits, pow_add, Nat.mod_mul, Nat.add_comm, Nat.mul_comm]
  rw [signPattern, hsign, hlow, Nat.mul_comm, Nat.div_add_mod]

/-- The patterns of the two zeros (R286). -/
theorem unpack_signPattern {f : FpFormat} (hE : 2 ≤ f.expBits) (neg : Bool) :
    unpack f (signPattern f neg) = .zero neg ∧ signPattern f neg < 2 ^ f.width := by
  have hpos := Nat.two_pow_pos (f.expBits + f.manBits)
  have hinf : 0 ≠ 2 ^ f.expBits - 1 := (Nat.sub_pos_of_lt (Nat.one_lt_two_pow (by omega))).ne
  have hunpack := unpack_signPattern_add f neg hpos
  rw [Nat.zero_div, Nat.zero_mod, if_neg hinf, if_pos rfl, if_pos rfl] at hunpack
  exact ⟨hunpack, signPattern_add_lt f neg hpos⟩

/-- No other pattern is a zero. -/
theorem unpack_eq_zero {f : FpFormat} {v : Nat} {neg : Bool} (hv : v < 2 ^ f.width) (h : unpack f v = .zero neg) :
    neg = fpSign f v ∧ v = signPattern f neg := by
  have hfields := eq_fields hv
  simp only [unpack] at h
  split_ifs at h with hinf hman hexp hman
  cases h
  exact ⟨rfl, by simpa [hexp, hman] using hfields⟩

/-- The pattern of a finite number, by its significand and its place `j` above the lowest: where the place is not the
lowest the significand has all its bits, and its leading one counts one place more in the exponent field. -/
theorem unpack_eq_finite {f : FpFormat} (hE : 2 ≤ f.expBits) {v : Nat} {neg : Bool} {sig : Nat} {exp : Int}
    (hv : v < 2 ^ f.width) (h : unpack f v = .finite neg sig exp) :
    neg = fpSign f v ∧ sig < 2 ^ (f.manBits + 1) ∧ ∃ j : Nat, exp = fpMinExp f + j ∧ exp ≤ fpBias f - f.manBits
      ∧ (j = 0 ∨ 2 ^ f.manBits ≤ sig) ∧ v = signPattern f neg + j * 2 ^ f.manBits + sig := by
  have hfields := eq_fields hv
  have hman : fpManField f v < 2 ^ f.manBits := Nat.mod_lt _ (Nat.two_pow_pos _)
  have hexp : fpExpField f v < 2 ^ f.expBits := Nat.mod_lt _ (Nat.two_pow_pos _)
  have hbias := one_le_fpBias hE
  have hcount := natCast_two_pow_expBits hE
  have hmin : fpMinExp f = 1 - fpBias f - f.manBits := rfl
  rw [pow_succ]
  simp only [unpack] at h
  split_ifs at h with hinf _ hzero
  all_goals cases h
  · rw [hzero] at hfields
    exact ⟨rfl, by omega, 0, by simp, by omega, .inl rfl, by omega⟩
  · obtain ⟨j, hj⟩ := Nat.exists_eq_add_one_of_ne_zero hzero
    rw [hj, Nat.succ_mul] at hfields
    exact ⟨rfl, by omega, j, by rw [hj]; push_cast; ring, by omega, .inr (Nat.le_add_right ..), by omega⟩

/-! ### Numbers (R284, R316) -/

/-- Rounding at a place no higher than the number's last one drops nothing. -/
theorem roundAt_of_le (mode : RoundingMode) (neg : Bool) (sig : Nat) {exp e : Int} (h : e ≤ exp) :
    roundAt mode neg sig exp false e = (sig * 2 ^ (exp - e).toNat, false) := by
  have hkept : (e - exp).toNat = 0 := by omega
  simp [roundAt, hkept, Nat.mod_one, droppedPart, roundsAway]

section
variable {f : FpFormat} {sig : Nat} {exp : Int}

/-- The last place of the binade of a number with no more bits than the format keeps is no higher than its own. -/
theorem unboundedExp_le (hsig : 0 < sig) (hbits : sig < 2 ^ (f.manBits + 1)) : unboundedExp f sig exp ≤ exp := by
  have := (Nat.log2_lt hsig.ne').2 hbits
  rw [unboundedExp]
  omega

/-- Rounding such a number with unbounded exponent keeps the exponent of its leading bit. -/
theorem unboundedTop_of_bits (mode : RoundingMode) (neg : Bool) (hsig : 0 < sig) (hbits : sig < 2 ^ (f.manBits + 1)) :
    unboundedTop f mode neg sig exp false = exp + Nat.log2 sig := by
  have hlog := (Nat.log2_lt hsig.ne').2 hbits
  have hshift : (exp - unboundedExp f sig exp).toNat = f.manBits - Nat.log2 sig := by rw [unboundedExp]; omega
  have hround : unboundedSig f mode neg sig exp false < 2 ^ (f.manBits + 1) := by
    rw [unboundedSig, roundAt_of_le mode neg sig (unboundedExp_le hsig hbits), hshift]
    calc sig * 2 ^ (f.manBits - Nat.log2 sig) < 2 ^ (Nat.log2 sig + 1) * 2 ^ (f.manBits - Nat.log2 sig) :=
          Nat.mul_lt_mul_of_pos_right Nat.lt_log2_self (Nat.two_pow_pos _)
      _ = 2 ^ (f.manBits + 1) := by rw [← pow_add]; congr 1; omega
  rw [unboundedTop, if_neg hround.ne, unboundedExp]
  push_cast
  ring

variable (mode : RoundingMode) (neg : Bool) (hsig : 0 < sig) (hbits : sig < 2 ^ (f.manBits + 1))
  (hmin : fpMinExp f ≤ exp) (hmax : exp + Nat.log2 sig ≤ fpBias f)
include hsig hbits hmin hmax

/-- A number that the format holds is rounded at a place it is a multiple of, so nothing is dropped (R284). -/
theorem roundFinite_of_representable :
    roundFinite f mode neg sig exp false
      = { bits := signPattern f neg + (lastPlace f sig exp - fpMinExp f).toNat * 2 ^ f.manBits
            + sig * 2 ^ (exp - lastPlace f sig exp).toNat
          tiny := decide (exp + Nat.log2 sig < 1 - fpBias f) } := by
  have hplace : lastPlace f sig exp ≤ exp := max_le (unboundedExp_le hsig hbits) hmin
  have htop := unboundedTop_of_bits (exp := exp) mode neg hsig hbits
  rw [roundFinite_of_number (by omega), htop, ← lastPlace, roundAt_of_le mode neg sig hplace]

/-- Its pattern stands for the same number. -/
theorem unpack_roundFinite_of_representable (hE : 2 ≤ f.expBits) :
    (unpack f (roundFinite f mode neg sig exp false).bits).Denotes neg (sig * 2 ^ exp)
      ∧ (roundFinite f mode neg sig exp false).bits < 2 ^ f.width := by
  have hplace : lastPlace f sig exp ≤ exp := max_le (unboundedExp_le hsig hbits) hmin
  have hlowest : fpMinExp f ≤ lastPlace f sig exp := le_max_right ..
  have htop := unboundedTop_of_bits (exp := exp) mode neg hsig hbits
  have hstands : StandsFor sig exp false ((sig : ℚ) * 2 ^ exp) := rfl
  obtain ⟨hn, hj, hfinite⟩ := number_fits (mode := mode) (neg := neg) hE hsig hstands nofun (by omega) rfl rfl
  obtain ⟨hdenotes, hlt⟩ := unpack_number f neg hn hj hfinite
  rw [roundAt_of_le mode neg sig hplace] at hdenotes hlt
  have hvalue : (sig : ℚ) * 2 ^ exp = (sig * 2 ^ (exp - lastPlace f sig exp).toNat : Nat)
      * 2 ^ (fpMinExp f + ((lastPlace f sig exp - fpMinExp f).toNat : Int)) := by
    push_cast
    rw [mul_assoc, ← zpow_natCast, ← zpow_add₀ two_ne_zero]
    congr 2
    omega
  rw [roundFinite_of_representable mode neg hsig hbits hmin hmax, hvalue]
  exact ⟨hdenotes, hlt⟩

end

/-- A number is its magnitude with its sign. -/
theorem FpVal.Denotes.toRat_eq {a b : FpVal} {neg : Bool} {x : ℚ} (ha : a.Denotes neg x) (hb : b.Denotes neg x) :
    a.toRat = b.toRat := by
  have signed {v : FpVal} (hv : v.isNumber = true) : v.toRat = if v.negative then -|v.toRat| else |v.toRat| := by
    rcases FpVal.isNumber_cases hv with ⟨y, rfl⟩ | ⟨y, sig, exp, rfl, hsig⟩
    · simp [FpVal.toRat]
    · have hsign := toRat_finite_sign y exp hsig
      cases y
      · exact (abs_of_pos hsign).symm
      · exact (neg_eq_iff_eq_neg.2 (abs_of_neg hsign)).symm
  obtain ⟨hanum, haneg, haabs⟩ := ha
  obtain ⟨hbnum, hbneg, hbabs⟩ := hb
  rw [signed hanum, signed hbnum, haneg, hbneg, haabs, hbabs]

/-- The last place of a number of a format is its own: that of its leading bit, or the lowest. -/
theorem lastPlace_eq {f : FpFormat} {sig j : Nat} (hsig : 0 < sig) (hbits : sig < 2 ^ (f.manBits + 1))
    (hj : j = 0 ∨ 2 ^ f.manBits ≤ sig) : lastPlace f sig (fpMinExp f + j) = fpMinExp f + j := by
  have hle := unboundedExp_le (exp := fpMinExp f + j) hsig hbits
  refine le_antisymm (max_le hle (by omega)) ?_
  rcases hj with rfl | hnormal
  · exact (le_max_right ..).trans_eq' (by simp)
  · have hlog := (Nat.le_log2 hsig.ne').2 hnormal
    refine le_trans ?_ (le_max_left ..)
    rw [unboundedExp]
    omega

/-- A format with no fewer exponent and mantissa bits reaches as far up and down. -/
theorem fpBias_mono {f g : FpFormat} (h : g.expBits ≤ f.expBits) : fpBias g ≤ fpBias f :=
  sub_le_sub_right (pow_le_pow_right₀ one_le_two (Nat.sub_le_sub_right h 1)) 1

/-- A number of a format, rounded to a format with no fewer exponent and mantissa bits. -/
theorem roundTo_unpack {f g : FpFormat} (mode : RoundingMode) {v : Nat} (hE : 2 ≤ f.expBits) (hEg : 2 ≤ g.expBits)
    (hexpBits : g.expBits ≤ f.expBits) (hmanBits : g.manBits ≤ f.manBits) (hv : v < 2 ^ g.width)
    (hnumber : (unpack g v).isNumber = true) :
    let r := roundTo f mode (unpack g v) false
    (unpack f r.bits).toRat = (unpack g v).toRat ∧ (unpack f r.bits).negative = fpSign g v ∧ r.bits < 2 ^ f.width
      ∧ r.overflow = false ∧ r.inexact = false ∧ (g = f → r.bits = v) := by
  rcases FpVal.isNumber_cases hnumber with ⟨neg, hzero⟩ | ⟨neg, sig, exp, hfinite, hsig⟩
  · obtain ⟨hneg, hpattern⟩ := unpack_eq_zero hv hzero
    obtain ⟨hunpack, hlt⟩ := unpack_signPattern hE neg
    rw [hzero, ← hneg]
    refine ⟨congrArg FpVal.toRat hunpack, congrArg FpVal.negative hunpack, hlt, rfl, rfl, ?_⟩
    rintro rfl
    exact hpattern.symm
  · obtain ⟨hneg, hbitsG, j, rfl, hmaxG, hj, hpattern⟩ := unpack_eq_finite hEg hv hfinite
    have hbits : sig < 2 ^ (f.manBits + 1) := hbitsG.trans_le (Nat.pow_le_pow_right two_pos (by omega))
    have hbias := fpBias_mono hexpBits
    have hmin : fpMinExp f ≤ fpMinExp g + j := by simp only [fpMinExp]; omega
    have hlog := (Nat.log2_lt hsig.ne').2 hbitsG
    have hmax : fpMinExp g + j + Nat.log2 sig ≤ fpBias f := by omega
    obtain ⟨hdenotes, hlt⟩ := unpack_roundFinite_of_representable mode neg hsig hbits hmin hmax hE
    have ⟨_, hsign, _⟩ := hdenotes
    have hround := roundFinite_of_representable mode neg hsig hbits hmin hmax
    rw [hfinite, ← hneg]
    refine ⟨hdenotes.toRat_eq (FpVal.denotes_finite neg hsig.ne' _), hsign, hlt,
      congrArg Rounded.overflow hround, congrArg Rounded.inexact hround, ?_⟩
    rintro rfl
    rw [lastPlace_eq hsig hbits hj] at hround
    rw [roundTo, hround, hpattern]
    simp

/-! ### The quiet NaN (R286, R292) -/

/-- QNAN: sign 0, the exponent field all 1 and the top mantissa bit alone (D27). -/
theorem quietNan_eq (f : FpFormat) :
    quietNan f = (2 ^ f.expBits - 1) * 2 ^ f.manBits + 2 ^ (f.manBits - 1) := by
  simp [quietNan, infPattern, signPattern]

theorem unpack_quietNan {f : FpFormat} (hM : 1 ≤ f.manBits) : unpack f (quietNan f) = .nan false := by
  have hpos := Nat.two_pow_pos (f.manBits - 1)
  have htop : 2 ^ (f.manBits - 1) < 2 ^ f.manBits := Nat.pow_lt_pow_right one_lt_two (by omega)
  have hm : 2 ^ f.manBits * (2 ^ f.expBits - 1) + 2 ^ (f.manBits - 1) < 2 ^ (f.expBits + f.manBits) := by
    calc 2 ^ f.manBits * (2 ^ f.expBits - 1) + 2 ^ (f.manBits - 1) < 2 ^ f.manBits * (2 ^ f.expBits - 1 + 1) := by
          rw [Nat.mul_succ]; omega
      _ = 2 ^ (f.expBits + f.manBits) := by rw [Nat.sub_add_cancel Nat.one_le_two_pow, ← pow_add, Nat.add_comm]
  rw [quietNan, infPattern, Nat.add_assoc, Nat.mul_comm (2 ^ f.expBits - 1), unpack_signPattern_add f false hm,
    Nat.mul_add_div (Nat.two_pow_pos _), Nat.div_eq_of_lt htop, Nat.add_zero, Nat.mul_add_mod, Nat.mod_eq_of_lt htop,
    Nat.div_self hpos, if_pos rfl, if_neg hpos.ne']
  rfl

/-- Settles O57: a number by `roundTo_unpack`, and each other class by its pattern. -/
theorem representableNumbersRoundToThemselves : Obligations.RepresentableNumbersRoundToThemselves := by
  intro f g mode v neg sticky hE hM hEg hMg hexpBits hmanBits
  obtain ⟨hzero, hzeroLt⟩ := unpack_signPattern hE neg
  obtain ⟨hinfinite, hinfiniteLt⟩ := unpack_infPattern f neg
  rw [← quietNan_eq]
  exact ⟨roundTo_unpack mode hE hEg hexpBits hmanBits, ⟨hzero, rfl, hzeroLt⟩, ⟨hinfinite, rfl, hinfiniteLt⟩, rfl,
    unpack_quietNan hM⟩

end Sys2Proof.Machine
end

section
/-! PROOFS. JMP and the branches complete (R350 to R373): the transfer value, where a transfer goes, the condition on the
argument, and what is written. -/
namespace Sys2Proof.Machine

/-! ### Where a transfer goes (R29, R351, R352) -/

/-- INSTRUCTION COUNTER contents of an integer are the integer modulo 2^IC_WIDTH. -/
theorem toNat_wrapIc_ofInt {c : Config} (h : c.icWidth ≤ 64) (k : Int) :
    ((wrapIc c (BitVec.ofInt 64 k)).toNat : Int) = k % 2 ^ c.icWidth := by
  have hcut : (BitVec.ofInt 64 k).toNat % 2 ^ c.icWidth < 2 ^ 64 :=
    (Nat.mod_le _ _).trans_lt (BitVec.isLt _)
  rw [wrapIc, BitVec.toNat_ofNat, Nat.mod_eq_of_lt hcut, natCast_toNat_ofInt_mod]
  exact Int.emod_emod_of_dvd k (pow_dvd_pow 2 h)

/-- A wrapped summand does not change a wrapped sum (R29). -/
theorem toNat_wrapIc_add_wrapIc {c : Config} (h : c.icWidth ≤ 64) (v : DWord) (k : Int) :
    ((wrapIc c (v + wrapIc c (BitVec.ofInt 64 k))).toNat : Int) = (v.toNat + k) % 2 ^ c.icWidth := by
  have hsum : v + wrapIc c (BitVec.ofInt 64 k)
      = BitVec.ofInt 64 (v.toNat + (wrapIc c (BitVec.ofInt 64 k)).toNat) := by
    rw [ofInt_toNat_add, BitVec.ofInt_natCast, BitVec.ofNat_toNat, BitVec.setWidth_eq]
  rw [hsum, toNat_wrapIc_ofInt h, toNat_wrapIc_ofInt h, Int.add_emod_emod]

/-- The transfer value the instruction forms (R351). -/
def Target.transferValue {n : Nat} (t : Target n) (s : State) : DWord :=
  match t with
  | .location l => s.locationValue l
  | .offset off => s.offsetValue off

/-- It is the integer of R351, modulo 2^IC_WIDTH. -/
theorem Target.transferValue_eq {n : Nat} (t : Target n) (s : State) :
    t.transferValue s = wrapIc s.cfg (BitVec.ofInt 64 (t.value s)) := by
  cases t <;> rfl

theorem State.transfer_ic_eq_destination {s : State} (h : s.cfg.icWidth ≤ 64) {n : Nat} (t : Target n) (a p : Bool) :
    ((s.transfer a p (t.transferValue s)).ic.toNat : Int) = t.destination a s := by
  rw [t.transferValue_eq, Target.destination]
  cases a
  · exact toNat_wrapIc_add_wrapIc h s.ic _
  · exact toNat_wrapIc_ofInt h _

/-! ### Completing -/

/-- A control instruction that wrote IC and CRP alone completes (R350). -/
theorem State.retire_onlyTransfer (s : State) (ic crp : DWord) :
    OnlyTransfer s (({ s with ic := ic, crp := crp } : State).retire s) := by
  rw [OnlyTransfer, State.retire_ic, State.retire_crp]
  exact State.retire_frame _ _

theorem State.retire_completed_nil (s u : State) (hir : u.ir = s.ir) (hexc : u.exc = s.exc) (hexi : u.exi = s.exi)
    (hdue : u.debugDue = s.debugDue) : Completed s (u.retire s) [] :=
  State.retire_completed s u [] hir hexc hexi hdue

/-! ### JMP -/

/-- An instruction that accesses no data fits every file: its word must be there, and the registers it names (R355). -/
theorem State.firstHit_gprChecks_zero_eq_none {s : State} {regs : List Nat} (hlacks : s.lacks = false)
    (hregs : ∀ r ∈ regs, r < s.gpr.length) : firstHit (s.gprChecks true 0 regs) = none := by
  have hparts : partsNeeded s.vw 0 ≤ s.gpr.length := by
    have hpos : 0 < s.vw := (visibleWidth_bounds _).1
    rw [partsNeeded, Nat.zero_add, Nat.div_eq_of_lt (by omega)]
    exact Nat.zero_le _
  have hexist : regs.any (missing s.gpr) = false := by simpa [missing] using hregs
  rw [State.gprChecks, firstHit_cons_of_false _ _ (by simp [hlacks, (accessFits_eq_true ..).2 (.inr hparts)]),
    firstHit_cons_of_false _ _ hexist]
  rfl

theorem exec_jumpForm (a p : Bool) (tgt : Target 20) (s : State) :
    exec (jumpForm a p tgt) s = .next (runJump a p tgt.registers (tgt.transferValue s) s) := by
  cases tgt <;> rfl

/-- Settles O59: the checks pass, and the transfer goes where R352 says. -/
theorem jumpCompletes : Obligations.JumpCompletes := by
  intro a p tgt s hic hlacks hregs
  refine ⟨(s.transfer a p (tgt.transferValue s)).retire s, ?_, s.retire_onlyTransfer _ _, ?_, ?_,
    s.retire_completed_nil _ rfl rfl rfl rfl⟩
  · rw [exec_jumpForm, runJump, s.guarded_of_none _ _ _ (State.firstHit_gprChecks_zero_eq_none hlacks hregs)]
  · rw [State.retire_ic, State.transfer_ic_eq_destination hic]
  · rw [State.retire_crp]
    rfl

/-! ### The branches -/

section
variable {w : Nat} (v : BitVec w)

theorem allZero_eq : allZero v = decide (v.toNat = 0) := by
  rw [allZero, Bool.eq_iff_iff, beq_iff_eq, decide_eq_true_eq, ← BitVec.toNat_inj]
  rfl

theorem allOne_eq : allOne v = decide (v.toNat = 2 ^ w - 1) := by
  rw [allOne, Bool.eq_iff_iff, beq_iff_eq, decide_eq_true_eq, ← BitVec.toNat_inj, BitVec.toNat_allOnes]

theorem lsb_eq : lsb v = decide (v.toNat % 2 = 1) := by
  rw [lsb, ← BitVec.testBit_toNat, Nat.testBit_zero]

/-- The condition a branch tests. -/
def Branch.condition (c : Branch) : Bool :=
  match c with
  | .bz => condBz v
  | .bnz => condBnz v
  | .bm => condBm v
  | .bmz => condBmz v
  | .bnm => condBnm v
  | .bnmo => condBnmo v
  | .bl => condBl v
  | .blz => condBlz v
  | .bnl => condBnl v
  | .bnlo => condBnlo v
  | .bo => condBo v
  | .bno => condBno v

/-- It is that of R354 and R373, on the argument as a number. -/
theorem Branch.condition_eq_holds (c : Branch) : c.condition v = c.holds v := by
  simp only [Branch.holds, ← allZero_eq, ← allOne_eq, ← lsb_eq, ← BitVec.msb_eq_decide]
  cases c <;> rfl

end

theorem exec_branchInstr (c : Branch) (m : MMode) (a p : Bool) (g : Nat) (tgt : Target 14) (s : State) :
    exec (c.instr m a p g tgt) s
      = .next (runBranch m a p (g :: tgt.registers) (c.condition (s.readGpr g m.width)) (tgt.transferValue s) s) := by
  cases tgt <;> cases c <;> rfl

/-- Settles O60: the checks pass, and the condition decides between the transfer and IC + 1. -/
theorem branchesComplete : Obligations.BranchesComplete := by
  intro c m a p g tgt s hic hready hmode
  dsimp only
  rw [exec_branchInstr, runBranch, s.guarded_of_none _ _ _ (hready.firstHit_gprChecks_eq_none hmode),
    Branch.condition_eq_holds]
  cases c.holds (s.readGpr g m.width)
  case true =>
    refine ⟨_, rfl, s.retire_onlyTransfer _ _, fun _ => ?_, nofun, ?_, s.retire_completed_nil _ rfl rfl rfl rfl⟩
    · rw [if_pos rfl, State.retire_ic, State.transfer_ic_eq_destination hic]
    · rw [if_pos rfl, State.retire_crp]
      rfl
  case false =>
    refine ⟨_, rfl, s.retire_onlyTransfer _ _, nofun, fun _ => ?_, ?_, s.retire_completed_nil _ rfl rfl rfl rfl⟩
    · rw [if_neg nofun, State.retire_ic]
      rfl
    · rw [if_neg nofun, State.retire_crp]
      rfl

end Sys2Proof.Machine
end

section
/-! PROOFS. WAIT (R382 to R386): it starts the pause, and each clock cycle counts the pause down or ends it. -/
namespace Sys2Proof.Machine

/-! ### The pause starts -/

/-- A WAIT whose word and registers are there loads the timer. -/
theorem runWait_of_ready {s : State} {regs : List Nat} (hlacks : s.lacks = false)
    (hregs : ∀ r ∈ regs, r < s.gpr.length) (value : Nat) :
    runWait regs value s = { s with waitTimer := value % 2 ^ s.cfg.waitTimerWidth, waiting := true } :=
  s.guarded_of_none _ _ _ (State.firstHit_gprChecks_zero_eq_none hlacks hregs)

/-- Settles O33: both forms are `runWait`, on the immediate and on the register. -/
theorem waitStartsPause : Obligations.WaitStartsPause := by
  intro s hlacks
  exact ⟨fun n => congrArg _ (runWait_of_ready hlacks (regs := []) nofun _),
    fun l hl => congrArg _ (runWait_of_ready hlacks (regs := [l]) (by simpa using hl) _)⟩

/-! ### A clock cycle of the pause (R385, R386) -/

/-- A pending NMI or a pending potent interrupt, which break a pause (R386). -/
def State.pauseBroken (s : State) : Prop := s.nmiPending = true ∨ s.irqPending = true ∧ s.scr.getLsbD 3 = true

section
variable {s : State}

theorem State.pauseBroken_iff :
    s.pauseBroken ↔ s.nmiPending = true ∨ (s.irqPending && s.interruptsEnabled) = true := by
  rw [State.pauseBroken, Bool.and_eq_true]
  rfl

theorem State.pauseCycle_eq_endPause (h : s.pauseBroken ∨ s.waitTimer = 1) : s.pauseCycle = s.endPause := by
  rw [State.pauseBroken_iff] at h
  unfold State.pauseCycle
  split
  · rfl
  split
  · rfl
  rename_i hnmi hirq
  have hone : s.waitTimer = 1 := h.resolve_left (not_or.2 ⟨hnmi, hirq⟩)
  rw [if_neg (by omega), if_pos hone]

theorem State.pauseCycle_of_not_broken (h : ¬s.pauseBroken) (hone : s.waitTimer ≠ 1) :
    s.pauseCycle = { s with waitTimer := s.waitTimer - 1 } := by
  rw [State.pauseBroken_iff, not_or] at h
  rw [State.pauseCycle, if_neg h.1, if_neg h.2, if_neg hone]
  split
  · have hzero : s.waitTimer - 1 = s.waitTimer := by omega
    rw [hzero]
  · rfl

/-- No boundary stands inside a pause (R386). -/
theorem State.boundary_of_waiting (h : s.waiting = true) : s.boundary = s := by
  rw [State.boundary, h, Bool.true_or, if_pos rfl]

/-- With no event arriving, a step of a paused core is a clock cycle and, where the pause has ended, a boundary. -/
theorem step_of_waiting (hinputs : s.inputs = []) (herror : s.errorState = false) (hwaiting : s.waiting = true) :
    step s = .next s.pauseCycle.boundary := by
  rw [step_of_eventsMeet s _ (.inr (.inl ⟨herror, hwaiting, rfl⟩)) (.inl herror),
    State.arrive_of_nil _ ((FlowKept.pauseCycle s).inputs.trans hinputs)]

/-- A pause that goes on counts down from 2 on, and stays at 0 (R385). -/
theorem step_of_pause_goesOn (hinputs : s.inputs = []) (herror : s.errorState = false) (hwaiting : s.waiting = true)
    (hbroken : ¬s.pauseBroken) (hone : s.waitTimer ≠ 1) : step s = .next { s with waitTimer := s.waitTimer - 1 } := by
  rw [step_of_waiting hinputs herror hwaiting, State.pauseCycle_of_not_broken hbroken hone]
  exact congrArg _ (State.boundary_of_waiting hwaiting)

end

/-- The end of a pause writes IC + 1, the end of the pause, and what completing writes (R385, log 26). -/
theorem State.endPause_frame (s : State) :
    s.endPause = { s with
      waiting := false, waitTimer := 0, ic := s.icNext, exc := s.endPause.exc, exi := s.endPause.exi,
      lastWord := s.endPause.lastWord, debugDue := s.endPause.debugDue } :=
  State.retire_frame _ _

theorem State.endPause_completed (s : State) : Completed s s.endPause [] :=
  s.retire_completed_nil _ rfl rfl rfl rfl

/-- Settles O34: each case is one of `pauseCycle`. -/
theorem pausedCycle : Obligations.PausedCycle := by
  intro s hinputs herror hwaiting
  refine ⟨fun h => ⟨s.endPause, ?_, s.endPause_completed, s.endPause_frame⟩, fun h hzero => ?_, fun h htwo => ?_⟩
  · rw [step_of_waiting hinputs herror hwaiting, State.pauseCycle_eq_endPause h]
  · rw [step_of_pause_goesOn hinputs herror hwaiting h (by omega)]
    have hsame : s.waitTimer - 1 = s.waitTimer := by omega
    rw [hsame]
  · exact step_of_pause_goesOn hinputs herror hwaiting h (by omega)

/-! ### A definite pause (R384) -/

/-- A boundary with nothing due changes nothing (R432). -/
theorem State.boundary_of_nothing_due {s : State} (hnmi : s.nmiPending = false) (hdebug : s.debugDue = false)
    (hexception : s.exceptionPending = false) (hirq : (s.irqPending && s.interruptsEnabled) = false) :
    s.boundary = s := by
  simp [State.boundary, hnmi, hdebug, hexception, hirq]

/-- Out of debug mode, completing a pause writes LAST_WORD alone beside the end of the pause (R64, R412). -/
theorem State.endPause_of_not_debugMode {s : State} (h : s.debugMode = false) :
    s.endPause = { s with waitTimer := 0, waiting := false, ic := s.icNext, lastWord := s.ir } :=
  if_neg (by rw [Bool.not_eq_true]; exact h)

/-- A clock cycle at a timer of 1, out of debug mode and with nothing due, ends the pause. -/
theorem step_of_last_cycle {s : State} (hinputs : s.inputs = []) (herror : s.errorState = false)
    (hwaiting : s.waiting = true) (htimer : s.waitTimer = 1) (hnmi : s.nmiPending = false)
    (hirq : (s.irqPending && s.interruptsEnabled) = false) (hmode : s.debugMode = false) (hdebug : s.debugDue = false)
    (hexception : s.exceptionPending = false) :
    step s = .next { s with waitTimer := 0, waiting := false, ic := s.icNext, lastWord := s.ir } := by
  rw [step_of_waiting hinputs herror hwaiting, State.pauseCycle_eq_endPause (.inr htimer),
    State.endPause_of_not_debugMode hmode]
  exact congrArg _ (State.boundary_of_nothing_due hnmi hdebug hexception hirq)

theorem coreRun_succ_of_step {M : Host.Core} {s t : M.State} (h : M.step s = .next t) (k : Nat) :
    M.run (k + 1) s = M.run k t := by
  rw [Host.Core.run, h]

/-- A pause that nothing breaks takes a step for each count above 1 (R385). -/
theorem coreRun_pause (k j : Nat) {s : State} (hinputs : s.inputs = []) (herror : s.errorState = false)
    (hwaiting : s.waiting = true) (htimer : s.waitTimer = k + 1) (hbroken : ¬s.pauseBroken) :
    Host.Core.run core (k + j) s = Host.Core.run core j { s with waitTimer := 1 } := by
  induction k generalizing s with
  | zero =>
    rw [Nat.zero_add] at htimer ⊢
    rw [← htimer]
  | succ k ih =>
    have hstep := step_of_pause_goesOn hinputs herror hwaiting hbroken (by omega)
    rw [Nat.add_right_comm, coreRun_succ_of_step (M := core) hstep]
    exact ih hinputs herror hwaiting (Nat.sub_eq_of_eq_add htimer) hbroken

/-- Settles O35: the counts above 1 each take a step, and the step from 1 ends the pause at a boundary with nothing
due. -/
theorem definitePauseLastsItsCycles : Obligations.DefinitePauseLastsItsCycles := by
  intro s k hinputs herror hwaiting htimer hnmi hirq hmode hdebug hexception
  have hbroken : ¬s.pauseBroken := by
    rw [State.pauseBroken_iff, hnmi, hirq]
    simp
  refine ⟨coreRun_pause k 0 hinputs herror hwaiting htimer hbroken, ?_⟩
  have hlast := step_of_last_cycle (s := { s with waitTimer := 1 }) hinputs herror hwaiting rfl hnmi hirq hmode hdebug
    hexception
  exact (coreRun_pause k 1 hinputs herror hwaiting htimer hbroken).trans (coreRun_succ_of_step (M := core) hlast 0)

end Sys2Proof.Machine
end

section
/-! PROOFS. The returns (R375 to R379): what they restore of SCR, that the matching return undoes an entry, and what a
return that completes leaves. -/
namespace Sys2Proof.Machine

/-! ### What a return restores of SCR (R50, R427) -/

/-- A return from an interrupt handler restores SCR bit 3 alone (R377). -/
theorem State.leaveInterrupt_scr_getLsbD (s : State) (p : Bool) (n : Nat) :
    (s.leaveInterrupt p).scr.getLsbD n = if n = 3 then s.savedI.getD (s.scr.getLsbD 3) else s.scr.getLsbD n := by
  rw [State.leaveInterrupt_scr]
  cases s.savedI with
  | none =>
    change s.scr.getLsbD n = if n = 3 then s.scr.getLsbD 3 else s.scr.getLsbD n
    split
    · rw [‹n = 3›]
    · rfl
  | some i =>
    rw [Option.map_some, restoreScr, withSavedBits_getLsbD]
    by_cases h0 : n = 0
    · simp [h0]
    by_cases h2 : n = 2
    · simp [h2]
    · simp [h0, h2]

/-- Settles O25: the slots hold the bits the entry replaced, and the pointers where it came from. -/
theorem returnUndoesEntry : Obligations.ReturnUndoesEntry := by
  intro s rp p
  refine ⟨?exceptionScr, rfl, rfl, ?nmiScr, rfl, rfl, fun n => ?interruptScr, rfl, rfl⟩
  case exceptionScr => exact withSavedBits_savedBits s.scr _
  case nmiScr => exact withSavedBits_savedBits s.scr _
  case interruptScr =>
    rw [State.leaveInterrupt_scr_getLsbD, State.enterInterrupt_savedI, Option.getD_some, State.enterInterrupt_scr,
      withSavedBits_getLsbD]
    by_cases h3 : n = 3
    · simp [h3]
    by_cases h2 : n = 2
    · simp [h2]
    · simp [h2, h3]

/-! ### Completing -/

/-- A return writes IC, SCR, its slot and what completing writes. -/
theorem State.retire_return_frame (s u : State) :
    u.retire s = { u with
      ic := (u.retire s).ic, scr := (u.retire s).scr, exc := (u.retire s).exc, exi := (u.retire s).exi,
      lastWord := (u.retire s).lastWord, debugDue := (u.retire s).debugDue } := by
  rw [State.retire_ic, State.retire_scr]
  exact State.retire_frame _ _

section
variable {s : State} (p : Bool)

theorem State.guarded_returnChecks (h : s.lacks = false) (work : State) :
    s.guarded false s.returnChecks work = work :=
  s.guarded_of_none _ _ _ (firstHit_cons_of_false _ _ h)

theorem State.guarded_systemReturnChecks (h : s.lacks = false) (hsys : s.systemMode = true) (work : State) :
    s.guarded false s.systemReturnChecks work = work := by
  refine s.guarded_of_none _ _ _ ?_
  rw [State.systemReturnChecks, firstHit_cons_of_false _ _ (by rw [hsys]; rfl)]
  exact firstHit_cons_of_false _ _ h

theorem exec_ret (h : s.lacks = false) :
    exec (.ret p) s = .next (({ s with ic := returnTarget s.cfg p s.crp } : State).retire s) :=
  congrArg Host.Outcome.next (State.guarded_returnChecks h _)

theorem exec_reti (h : s.lacks = false) : exec (.reti p) s = .next ((s.leaveInterrupt p).retire s) :=
  congrArg Host.Outcome.next (State.guarded_returnChecks h _)

theorem exec_rete (h : s.lacks = false) (hsys : s.systemMode = true) :
    exec (.rete p) s = .next ((s.leaveException p).retire s) :=
  congrArg Host.Outcome.next (State.guarded_systemReturnChecks h hsys _)

theorem exec_retn (h : s.lacks = false) (hsys : s.systemMode = true) :
    exec (.retn p) s = .next ((s.leaveNmi p).retire s) :=
  congrArg Host.Outcome.next (State.guarded_systemReturnChecks h hsys _)

end

/-- Settles O26: each return does its work behind checks that pass. -/
theorem returnsComplete : Obligations.ReturnsComplete := by
  intro p s hlacks target done restored
  have hrestored (slot : Option SavedBits) : restored slot (restoreScr s.scr slot) := by
    intro n
    cases slot with
    | none => rfl
    | some b =>
      rw [restoreScr, withSavedBits_getLsbD]
      rcases n with _ | _ | _ | _ | n <;> rfl
  refine ⟨?ret, ?reti, fun hsys => ?rete, fun hsys => ?retn⟩
  case ret =>
    refine ⟨_, exec_ret p hlacks, s.retire_return_frame _, State.retire_ic ..,
      State.retire_scr .., s.retire_completed_nil _ rfl rfl rfl rfl⟩
  case reti =>
    refine ⟨_, exec_reti p hlacks, s.retire_return_frame _, State.retire_ic .., fun n => ?_,
      s.retire_completed_nil _ rfl rfl rfl rfl⟩
    rw [State.retire_scr, State.leaveInterrupt_scr_getLsbD]
  case rete =>
    refine ⟨_, exec_rete p hlacks hsys, s.retire_return_frame _, State.retire_ic .., ?_,
      s.retire_completed_nil _ rfl rfl rfl rfl⟩
    rw [State.retire_scr]
    exact hrestored s.savedE
  case retn =>
    refine ⟨_, exec_retn p hlacks hsys, s.retire_return_frame _, State.retire_ic .., ?_,
      s.retire_completed_nil _ rfl rfl rfl rfl⟩
    rw [State.retire_scr]
    exact hrestored s.savedN

end Sys2Proof.Machine
end

section
/-! PROOFS. In user mode an instruction traps or leaves system state alone (R377, R414, R441, R442): each effect but a
trap, RETI and MOV to a special register writes none of it, and that MOV passes its checks only where it touches no entry
up to spc19. -/
namespace Sys2Proof.Machine

/-- The special registers and saved slots that are system mode's (R31, R441, R442): SCR, EXM, ETB, ITB, CID, PID, NRP,
ERP, SAVED_E and SAVED_N. -/
def State.systemState (s : State) :=
  (s.scr, s.exm, s.etb, s.itb, s.cid, s.pid, s.nrp, s.erp, s.savedE, s.savedN)

theorem State.systemState_eq_iff {s t : State} :
    t.systemState = s.systemState
      ↔ t.scr = s.scr ∧ t.exm = s.exm ∧ t.etb = s.etb ∧ t.itb = s.itb ∧ t.cid = s.cid ∧ t.pid = s.pid ∧ t.nrp = s.nrp
        ∧ t.erp = s.erp ∧ t.savedE = s.savedE ∧ t.savedN = s.savedN := by
  simp [State.systemState]

/-! ### What writes no system state -/

@[simp] theorem State.systemState_mark (s : State) (es : List Exc) : (s.mark es).systemState = s.systemState := by
  simp [State.systemState]

@[simp] theorem State.systemState_retire (s start : State) : (s.retire start).systemState = s.systemState := by
  simp [State.systemState]

@[simp] theorem State.systemState_advance (s : State) : s.advance.systemState = s.systemState := rfl

theorem State.systemState_skip (s : State) (e : Exc) (arithmetic : Bool) :
    (s.skip e arithmetic).systemState = s.systemState := by
  rw [State.skip, systemState_retire, systemState_advance, systemState_mark]
  split <;> rfl

theorem State.systemState_dataBusError (s : State) : s.dataBusError.systemState = s.systemState := by
  rw [State.dataBusError, systemState_retire, systemState_advance]
  exact s.systemState_mark _

theorem RegWrites.systemState {s u : State} (h : RegWrites s u) : u.systemState = s.systemState := by
  rw [h.frame]
  rfl

/-! ### MOV to a special register (R31, R32, R414) -/

theorem entryWord_wordEntry (v : Word) : BitVec.ofNat 32 (wordEntry v).toNat = v := by
  rw [wordEntry, BitVec.ofNat_toNat, BitVec.ofNat_toNat, BitVec.setWidth_setWidth_of_le _ (by omega),
    BitVec.setWidth_eq]

/-- The two entries of a 64-bit special register make up its value (R30). -/
theorem entryPair_halves (v : DWord) :
    BitVec.ofNat 64 ((lowEntry v).toNat % 2 ^ 32 + (highEntry v).toNat % 2 ^ 32 * 2 ^ 32) = v := by
  have hv := v.isLt
  apply BitVec.eq_of_toNat_eq
  simp only [lowEntry, highEntry, BitVec.toNat_ofNat]
  omega

/-- The special registers put back as the file has them. -/
theorem State.systemState_withSpcFile_spcFile (s : State) :
    (s.withSpcFile s.spcFile).systemState = s.systemState := by
  rw [State.systemState_eq_iff]
  exact ⟨entryWord_wordEntry _, entryPair_halves _, entryPair_halves _, entryPair_halves _, entryWord_wordEntry _,
    entryPair_halves _, entryPair_halves _, entryPair_halves _, rfl, rfl⟩

/-- System state stands in the entries up to spc19 (R31). -/
theorem State.systemState_withSpcFile_congr (s : State) {f g : List RegBits}
    (h : ∀ n, n ≤ 19 → f.getD n 0 = g.getD n 0) :
    (s.withSpcFile f).systemState = (s.withSpcFile g).systemState := by
  have word (n : Nat) (hn : n ≤ 19) : entryWord f n = entryWord g n := by rw [entryWord, entryWord, h n hn]
  have pair (n : Nat) (hn : n + 1 ≤ 19) : entryPair f n = entryPair g n := by
    rw [entryPair, entryPair, h n (by omega), h (n + 1) hn]
  simp only [State.systemState, State.withSpcFile_scr, State.withSpcFile_exm, State.withSpcFile_etb,
    State.withSpcFile_itb, State.withSpcFile_cid, State.withSpcFile_pid, State.withSpcFile_nrp, State.withSpcFile_erp,
    State.withSpcFile_savedE, State.withSpcFile_savedN, word 15, word 12, pair 6, pair 8, pair 10, pair 13, pair 16,
    pair 18, Nat.reduceLeDiff, Nat.reduceAdd]

/-- A special register write that touches no entry up to spc19 writes no system state. -/
theorem State.systemState_specialWritten (s : State) (d : Nat) {w : Nat} (v : BitVec w)
    (h : ∀ n, n ≤ 19 → (s.touchedEntries d w).contains n = false) :
    (specialWritten (s.touchedEntries d w) (s.writeSpc d v)).systemState = s.systemState := by
  have hexm : (specialWritten (s.touchedEntries d w) (s.writeSpc d v)).exm = (s.writeSpc d v).exm := by
    rw [specialWritten_exm, h 6 (by omega), if_neg nofun]
  have hentry (n : Nat) (hn : n ≤ 19) : (writeFile s.spcFile s.cfg.spcWidth d v).getD n 0 = s.spcFile.getD n 0 := by
    refine getD_writeFile_of_ne _ _ _ v fun k hk hnk => ?_
    exact absurd ((s.touchedEntries_contains d w n).2 ⟨k, hk, hnk.symm⟩) (by rw [h n hn]; nofun)
  calc (specialWritten (s.touchedEntries d w) (s.writeSpc d v)).systemState
      = (s.writeSpc d v).systemState := by rw [specialWritten_frame, hexm]; rfl
    _ = (s.withSpcFile s.spcFile).systemState := s.systemState_withSpcFile_congr hentry
    _ = s.systemState := s.systemState_withSpcFile_spcFile

/-- In user mode the checks of a MOV to a special register let no entry up to spc19 be touched (R31, R32, R414). -/
theorem State.touchedEntries_of_user {s after : State} {m : MMode} {d x : Nat} (hsys : s.systemMode = false)
    (h : firstHit (s.specialWriteChecks m d x after) = none) (n : Nat) (hn : n ≤ 19) :
    (s.touchedEntries d m.width).contains n = false := by
  rw [firstHit_none] at h
  have hmissing : (missing s.spcFile d || missing s.gpr x) = false :=
    h (missing s.spcFile d || missing s.gpr x, .unimplementedRegister)
      (by unfold State.specialWriteChecks State.moveChecks; split <;> simp)
  have hrights : (!s.systemMode && !missing s.spcFile d && (s.touchedEntries d m.width).any (userReadOnly s.cfg))
      = false :=
    h (!s.systemMode && !missing s.spcFile d && (s.touchedEntries d m.width).any (userReadOnly s.cfg),
      .systemInstruction) (by simp [State.specialWriteChecks])
  rw [Bool.or_eq_false_iff] at hmissing
  rw [hsys, hmissing.1, Bool.not_false, Bool.and_self, Bool.true_and, List.any_eq_false] at hrights
  rw [List.contains_eq_mem, decide_eq_false_iff_not]
  exact fun hmem => hrights n hmem (by simp [userReadOnly, hn])

/-! ### Every instruction -/

/-- In user mode an instruction traps, or writes no system state, or is a RETI that completes. -/
theorem exec_user {i : Instr} {s t : State} (hsys : s.systemMode = false) (h : exec i s = .next t) :
    (∃ raised, (∃ e ∈ raised, s.potent e = true) ∧ Trapped s t raised) ∨ t.systemState = s.systemState
      ∨ ∃ p, t = (s.leaveInterrupt p).retire s := by
  have traps (raised : List Exc) (hraised : raised.any s.potent = true) :
      (∃ e ∈ raised, s.potent e = true) ∧ Trapped s (s.abort raised) raised := by
    obtain ⟨e, hmem, hpotent⟩ := List.any_eq_true.1 hraised
    exact ⟨⟨e, hmem, hpotent⟩, s.abort_trapped raised (List.ne_nil_of_mem hmem)⟩
  cases exec_effect i s t h with
  | refused e arithmetic =>
    unfold State.raiseCheck
    split
    · exact .inl ⟨[e], traps [e] (by simpa)⟩
    · exact .inr (.inl (s.systemState_skip e arithmetic))
  | trapped raised hraised => exact .inl ⟨raised, traps raised hraised⟩
  | busError => exact .inr (.inl s.systemState_dataBusError)
  | computed raised flags u hu =>
    refine .inr (.inl ?_)
    rw [State.systemState_retire, State.systemState_advance, State.systemState_mark]
    exact hu.systemState
  | moved u hu r => exact .inr (.inl ((State.systemState_retire ..).trans hu.systemState))
  | stored addr n v u r _ hu => exact .inr (.inl ((State.systemState_retire ..).trans hu.regWrites.systemState))
  | notStored u hu => exact .inr (.inl ((State.systemState_retire ..).trans hu.regWrites.systemState))
  | special m d x _ hchecks =>
    exact .inr (.inl ((State.systemState_retire ..).trans
      (s.systemState_specialWritten d _ (State.touchedEntries_of_user hsys hchecks))))
  | transferred a p v => exact .inr (.inl (State.systemState_retire ..))
  | notTaken => exact .inr (.inl (State.systemState_retire ..))
  | returned p => exact .inr (.inl (State.systemState_retire ..))
  | leftInterrupt p => exact .inr (.inr ⟨p, rfl⟩)
  | leftException p _ hsystem => exact absurd hsystem (by rw [hsys]; nofun)
  | leftNmi p _ hsystem => exact absurd hsystem (by rw [hsys]; nofun)
  | paused n => exact .inr (.inl rfl)

/-- Settles O20: where an instruction does not trap, system state is as it was, but that RETI restores SCR bit 3. -/
theorem userModeIsConfined : Obligations.UserModeIsConfined := by
  intro i s t hsys h
  refine (exec_user hsys h).imp_right fun hconfined => ?_
  have hscr (n : Nat) (hn : n ≠ 3) : t.scr.getLsbD n = s.scr.getLsbD n := by
    rcases hconfined with hstate | ⟨p, rfl⟩
    · rw [(State.systemState_eq_iff.1 hstate).1]
    · rw [State.retire_scr, State.leaveInterrupt_scr_getLsbD, if_neg hn]
  refine ⟨(hscr 0 (by omega)).trans hsys, hscr, ?_⟩
  rcases hconfined with hstate | ⟨p, rfl⟩
  · exact (State.systemState_eq_iff.1 hstate).2
  · simp

end Sys2Proof.Machine
end

section
/-! PROOFS. Exceptions (R406, R422, R435): the entry sequence, that an instruction which enters handling writes nothing
but what the entry writes, and that a word which is no instruction is refused (R413). -/
namespace Sys2Proof.Machine

/-! ### The entry sequence (R422) -/

/-- Settles O22: the entry writes its four items, and of SCR the saved bits alone. -/
theorem exceptionEntrySequence : Obligations.ExceptionEntrySequence :=
  fun s _ => ⟨rfl, scrEntered_withSavedBits s.scr⟩

/-! ### Traps are precise (R406, R435) -/

/-- Where one of the exceptions raised is potent, handling is entered and nothing else is written. -/
theorem State.abort_trapped_of_potent (s : State) (raised : List Exc) (h : raised.any s.potent = true) :
    (∃ e ∈ raised, s.potent e = true) ∧ Trapped s (s.abort raised) raised := by
  obtain ⟨e, hmem, hpotent⟩ := List.any_eq_true.1 h
  exact ⟨⟨e, hmem, hpotent⟩, s.abort_trapped raised (List.ne_nil_of_mem hmem)⟩

@[simp] theorem State.skip_savedE (s : State) (e : Exc) (arithmetic : Bool) :
    (s.skip e arithmetic).savedE = s.savedE := by
  rw [(s.skip_skipped e arithmetic).1]

@[simp] theorem State.dataBusError_savedE (s : State) : s.dataBusError.savedE = s.savedE := by
  simp [State.dataBusError]

@[simp] theorem specialWritten_savedE (touched : List Nat) (t : State) :
    (specialWritten touched t).savedE = t.savedE := by
  rw [specialWritten_frame]

@[simp] theorem State.writeSpc_savedE (s : State) (n : Nat) {w : Nat} (v : BitVec w) :
    (s.writeSpc n v).savedE = s.savedE := rfl

theorem RegWrites.savedE {s u : State} (h : RegWrites s u) : u.savedE = s.savedE := by rw [h.frame]

/-- SAVED_E is filled by a trap alone: any other instruction keeps it, but that RETE empties it (R50, R378). -/
theorem exec_traps_or_savedE {i : Instr} {s t : State} (h : exec i s = .next t) :
    (∃ raised, (∃ e ∈ raised, s.potent e = true) ∧ Trapped s t raised) ∨ t.savedE = s.savedE ∨ t.savedE = none := by
  cases exec_effect i s t h with
  | refused e arithmetic =>
    unfold State.raiseCheck
    split
    · exact .inl ⟨[e], s.abort_trapped_of_potent [e] (by simpa)⟩
    · exact .inr (.inl (s.skip_savedE e arithmetic))
  | trapped raised hraised => exact .inl ⟨raised, s.abort_trapped_of_potent raised hraised⟩
  | busError => exact .inr (.inl s.dataBusError_savedE)
  | computed raised flags u hu => exact .inr (.inl (by simp [hu.savedE]))
  | moved u hu r => exact .inr (.inl (by simp [hu.savedE]))
  | stored addr n v u r _ hu => exact .inr (.inl (by simp [hu.regWrites.savedE]))
  | notStored u hu => exact .inr (.inl (by simp [hu.regWrites.savedE]))
  | special m d x => exact .inr (.inl (by simp))
  | transferred a p v => exact .inr (.inl (State.retire_savedE ..))
  | notTaken => exact .inr (.inl (by simp))
  | returned p => exact .inr (.inl (State.retire_savedE ..))
  | leftInterrupt p => exact .inr (.inl (by simp))
  | leftException p => exact .inr (.inr (by simp))
  | leftNmi p => exact .inr (.inl (by simp))
  | paused n => exact .inr (.inl rfl)

/-- Settles O21: an instruction that fills SAVED_E anew has trapped. -/
theorem trapsArePrecise : Obligations.TrapsArePrecise := by
  intro i s t saved h hfilled hnew
  refine (exec_traps_or_savedE h).resolve_right ?_
  rintro (hkept | hempty)
  · exact hnew (hkept.symm.trans hfilled)
  · rw [hempty] at hfilled
    cases hfilled

/-! ### Words that are no instruction (R413) -/

/-- A fetch that is not refused, of a word that is no instruction, raises INVALID INSTRUCTION. -/
theorem fetchAndRun_of_invalid {s : State} {e : DecodeError} (hbus : s.busError .fetch s.fetchAddress 4 = false)
    (hdecode : decode s.fetchWord = .error e) :
    fetchAndRun s = .next { s with ir := s.fetchWord }.invalidInstruction := by
  rw [fetchAndRun, hbus, hdecode]
  rfl

/-- Settles O5: the check that fails is the decoder's. -/
theorem invalidWordRaisesInvalidInstruction : Obligations.InvalidWordRaisesInvalidInstruction := by
  intro s e herror hwaiting hbus hdecode
  refine ⟨_, ?_, State.raiseCheck_refused _ .invalidInstruction false⟩
  rw [step_of_running herror hwaiting, fetchAndRun_of_invalid hbus hdecode]
  rfl

end Sys2Proof.Machine
end

section
/-! PROOFS. The instruction boundary (R432, R433): which event it enters, by rank, and that one entry leaves nothing
due. -/
namespace Sys2Proof.Machine

/-! ### What is entered, by rank -/

theorem ne_zero_iff_exists_getLsbD {w : Nat} (v : BitVec w) : v ≠ 0 ↔ ∃ n, n < w ∧ v.getLsbD n = true := by
  rw [ne_eq, BitVec.eq_of_getLsbD_eq_iff]
  simp

/-- A marked exception other than number 1 that is potent (R433). -/
theorem State.exceptionPending_iff (s : State) :
    s.exceptionPending = true
      ↔ s.scr.getLsbD 2 = true ∧ ∃ n, n < 64 ∧ n ≠ 1 ∧ s.exc.getLsbD n = true ∧ s.exm.getLsbD n = false := by
  have hnumber : Exc.debugMode.number = 1 := rfl
  have hbit (n : Nat) (hn : n < 64) : (s.exc &&& ~~~s.exm &&& ~~~Exc.debugMode.bit).getLsbD n = true
      ↔ n ≠ 1 ∧ s.exc.getLsbD n = true ∧ s.exm.getLsbD n = false := by
    simp only [BitVec.getLsbD_and, BitVec.getLsbD_not, Exc.getLsbD_bit, hnumber, hn, decide_true, Bool.true_and,
      Bool.and_eq_true, Bool.not_eq_true', beq_eq_false_iff_ne, ne_comm (a := 1)]
    tauto
  rw [State.exceptionPending, Bool.and_eq_true, bne_iff_ne, ne_zero_iff_exists_getLsbD]
  exact and_congr_right' (exists_congr fun n => and_congr_right (hbit n))

section
variable {s : State}

/-- No boundary stands inside a pause or in the undefined state (R386, R419). -/
theorem State.boundary_of_idle (h : s.waiting = true ∨ s.errorState = true) : s.boundary = s :=
  if_pos (by simpa using h)

variable (hidle : ¬(s.waiting = true ∨ s.errorState = true))
include hidle

theorem State.boundary_of_nmi (hnmi : s.nmiPending = true) : s.boundary = s.enterNmi := by
  rw [State.boundary, if_neg (by simpa using hidle), if_pos hnmi]

/-- A debug entry and a pending exception are entered alike, and no debug entry is due after either (R412, R433). -/
theorem State.boundary_of_exception (hnmi : s.nmiPending = false)
    (h : s.debugDue = true ∨ s.exceptionPending = true) :
    s.boundary = { s with debugDue := false }.enterException s.ic := by
  rw [State.boundary, if_neg (by simpa using hidle), if_neg (by simp [hnmi])]
  cases hdue : s.debugDue with
  | true => rfl
  | false =>
    rw [if_neg nofun, if_pos (h.resolve_left (by simp [hdue])), ← hdue]

theorem State.boundary_of_interrupt (hnmi : s.nmiPending = false) (hdue : s.debugDue = false)
    (hexception : s.exceptionPending = false) (hirq : s.irqPending = true) (henabled : s.scr.getLsbD 3 = true) :
    s.boundary = s.enterInterrupt := by
  have hpotent : (s.irqPending && s.interruptsEnabled) = true := by rw [hirq, State.interruptsEnabled, henabled]; rfl
  rw [State.boundary, if_neg (by simpa using hidle), if_neg (by simp [hnmi]), if_neg (by simp [hdue]),
    if_neg (by simp [hexception]), if_pos hpotent]

end

/-- An interrupt entry sets SYSTEM MODE and clears ENABLE INTERRUPTS (R428). -/
theorem State.enterInterrupt_scr_getLsbD (s : State) (n : Nat) :
    s.enterInterrupt.scr.getLsbD n = if n = 0 then true else if n = 3 then false else s.scr.getLsbD n := by
  rw [State.enterInterrupt_scr, withSavedBits_getLsbD]
  by_cases h2 : n = 2
  · simp [h2]
  · simp [h2]

/-- Settles O23: the clauses are the ranks of `State.boundary`. -/
theorem boundaryEntersHighestEvent : Obligations.BoundaryEntersHighestEvent := by
  intro s saved t idle marked
  have hpending : s.exceptionPending = true ↔ marked := s.exceptionPending_iff
  have hnotPending (h : ¬marked) : s.exceptionPending = false := by rwa [← hpending, Bool.not_eq_true] at h
  refine ⟨State.boundary_of_idle, fun hidle hnmi => ?nmi, fun hidle hnmi h => ?exception,
    fun hidle hnmi hdue hmarked hirq henabled => ?interrupt, fun _ hnmi hdue hmarked h => ?nothing⟩
  case nmi =>
    have ht : t = s.enterNmi := State.boundary_of_nmi hidle hnmi
    rw [ht]
    exact ⟨rfl, scrEntered_withSavedBits s.scr⟩
  case exception =>
    have ht : t = { s with debugDue := false }.enterException s.ic :=
      State.boundary_of_exception hidle hnmi (h.imp_right hpending.2)
    rw [ht]
    exact ⟨rfl, scrEntered_withSavedBits s.scr⟩
  case interrupt =>
    have ht : t = s.enterInterrupt :=
      State.boundary_of_interrupt hidle hnmi hdue (hnotPending hmarked) hirq henabled
    rw [ht]
    refine ⟨?_, s.enterInterrupt_scr_getLsbD⟩
    rw [← henabled]
    rfl
  case nothing =>
    exact State.boundary_of_nothing_due hnmi hdue (hnotPending hmarked) (Bool.and_eq_false_iff.2 h)

/-! ### One entry settles a boundary -/

/-- Where an entry has disabled exceptions and interrupts and neither an NMI nor a debug entry is due, nothing is (R432). -/
theorem State.boundary_of_disabled {s : State} {before : Word} (hscr : ScrEntered before s.scr)
    (hnmi : s.nmiPending = false) (hdue : s.debugDue = false) : s.boundary = s := by
  have hexceptions : s.exceptionsEnabled = false := hscr 2
  have hinterrupts : s.interruptsEnabled = false := hscr 3
  exact State.boundary_of_nothing_due hnmi hdue (by rw [State.exceptionPending, hexceptions, Bool.false_and])
    (by rw [hinterrupts, Bool.and_false])

/-- An interrupt entry enables no exception (R428). -/
theorem State.exceptionPending_enterInterrupt (s : State) : s.enterInterrupt.exceptionPending = s.exceptionPending := by
  have henabled : s.enterInterrupt.exceptionsEnabled = s.exceptionsEnabled := s.enterInterrupt_scr_getLsbD 2
  rw [State.exceptionPending, henabled]
  rfl

/-- What a boundary enters disables what ranks below it, and what ranks above it was not due. -/
theorem State.boundary_boundary (s : State) : s.boundary.boundary = s.boundary := by
  by_cases hidle : s.waiting = true ∨ s.errorState = true
  · rw [State.boundary_of_idle hidle, State.boundary_of_idle hidle]
  cases hnmi : s.nmiPending with
  | true =>
    rw [State.boundary_of_nmi hidle hnmi]
    exact State.boundary_of_disabled (scrEntered_withSavedBits s.scr) rfl rfl
  | false =>
    by_cases hexception : s.debugDue = true ∨ s.exceptionPending = true
    · rw [State.boundary_of_exception hidle hnmi hexception]
      exact State.boundary_of_disabled (scrEntered_withSavedBits s.scr) hnmi rfl
    · simp only [not_or, Bool.not_eq_true] at hexception
      obtain ⟨hdue, hpending⟩ := hexception
      by_cases hirq : s.irqPending = true ∧ s.scr.getLsbD 3 = true
      · rw [State.boundary_of_interrupt hidle hnmi hdue hpending hirq.1 hirq.2]
        exact State.boundary_of_nothing_due hnmi hdue (s.exceptionPending_enterInterrupt.trans hpending) rfl
      · have hsame : s.boundary = s :=
          State.boundary_of_nothing_due hnmi hdue hpending (by rwa [← Bool.not_eq_true, Bool.and_eq_true])
        rw [hsame, hsame]

/-- Settles O24: a step ends with a boundary (log 20). -/
theorem boundarySettlesInOneEntry : Obligations.BoundarySettlesInOneEntry := by
  refine ⟨State.boundary_boundary, fun s t h => ?_⟩
  obtain ⟨u, -, rfl⟩ := step_cases s t h
  exact u.arrive.boundary_boundary

end Sys2Proof.Machine
end

section
/-! PROOFS. System instructions, protected special registers and GPR banks that do not exist are refused (R32, R49, R414,
R415, R417, R418): which check of RETE, RETN and MOV to a special register is the first that holds. -/
namespace Sys2Proof.Machine

/-! ### The first check that holds -/

/-- Checks of which none holds are passed over (R409). -/
theorem firstHit_append_of_none {checks : List (Bool × Exc)} (rest : List (Bool × Exc))
    (h : firstHit checks = none) : firstHit (checks ++ rest) = firstHit rest := by
  induction checks with
  | nil => rfl
  | cons c t ih =>
    obtain ⟨b, e⟩ := c
    cases b
    · exact ih h
    · cases h

/-- A write touches an entry with some right exactly when one of its parts stands there (R25, R32). -/
theorem State.touchedEntries_any_eq_true (s : State) (d w : Nat) (p : Nat → Bool) :
    (s.touchedEntries d w).any p = true
      ↔ ∃ n, (∃ j, j < partsNeeded s.cfg.spcWidth w ∧ (d + j) % s.spcFile.length = n) ∧ p n = true := by
  simp [State.touchedEntries]

theorem userReadOnly_eq_true (c : Config) (n : Nat) :
    userReadOnly c n = true ↔ n ≤ 19 ∨ 27 ≤ n ∧ (n ∈ c.spcUserReadOnly ∨ n ∈ c.spcReadOnly) := by
  simp [userReadOnly]

theorem systemReadOnly_eq_true (c : Config) (n : Nat) :
    systemReadOnly c n = true ↔ n ≤ 1 ∨ 27 ≤ n ∧ n ∈ c.spcReadOnly := by
  simp [systemReadOnly]

section
variable {s after : State} {m : MMode} {d x : Nat}

/-- In user mode the rights of the entries rank before every other check (R409, R414). -/
theorem State.firstHit_specialWriteChecks_of_user (hsys : s.systemMode = false) (hd : d < s.spcFile.length)
    (h : (s.touchedEntries d m.width).any (userReadOnly s.cfg) = true) :
    firstHit (s.specialWriteChecks m d x after) = some .systemInstruction :=
  firstHit_append_of_some _ (firstHit_append_of_some _
    (firstHit_cons_of_true _ _ (by rw [hsys, h]; simpa [missing] using hd)))

/-- A bank that does not exist is raised before or after checks that pass (R49, R415, log 12). -/
theorem State.firstHit_specialWriteChecks_of_bank (hsys : s.systemMode = true)
    (hmove : firstHit (s.moveChecks m s.spcFile s.cfg.spcWidth d s.gpr s.vw x) = none) (hd : d < s.spcFile.length)
    (hx : x < s.gpr.length) (hbank : s.bank < s.banks.length) (hafter : s.banks.length ≤ after.bank) :
    firstHit (s.specialWriteChecks m d x after) = some .unimplementedGprBank := by
  have hswitch : (after.bank != s.bank && decide (s.banks.length ≤ after.bank) && !missing s.spcFile d
      && !missing s.gpr x) = true := by
    have hother : after.bank ≠ s.bank := by omega
    have hentry : missing s.spcFile d = false := decide_eq_false hd.not_ge
    have hsource : missing s.gpr x = false := decide_eq_false hx.not_ge
    simp [hother, hafter, hentry, hsource]
  unfold State.specialWriteChecks
  rw [List.append_assoc, List.singleton_append, firstHit_cons_of_false _ _ (by rw [hsys]; rfl)]
  refine firstHit_append_of_some _ ?_
  split
  · exact firstHit_append_of_some _ (firstHit_cons_of_true _ _ hswitch)
  · rw [firstHit_append_of_none _ hmove]
    exact firstHit_cons_of_true _ _ hswitch

/-- An entry that no mode may write is raised last (R32, R409, R418). -/
theorem State.firstHit_specialWriteChecks_of_readOnly (hsys : s.systemMode = true)
    (hmove : firstHit (s.moveChecks m s.spcFile s.cfg.spcWidth d s.gpr s.vw x) = none)
    (hafter : after.bank < s.banks.length) (h : (s.touchedEntries d m.width).any (systemReadOnly s.cfg) = true) :
    firstHit (s.specialWriteChecks m d x after) = some .invalidOperation := by
  have hexists : (after.bank != s.bank && decide (s.banks.length ≤ after.bank) && !missing s.spcFile d
      && !missing s.gpr x) = false := by
    simp [hafter.not_ge]
  unfold State.specialWriteChecks
  rw [firstHit_append_of_none]
  · exact firstHit_cons_of_true _ _ h
  · rw [List.singleton_append, firstHit_cons_of_false _ _ (by rw [hsys]; rfl)]
    split <;> simp only [firstHit_append_eq_none, firstHit_singleton_eq_none] <;> tauto

/-- An entry that does not exist has no rights and holds no bank number (R32, R417). -/
theorem State.firstHit_specialWriteChecks_of_missingEntry (hd : s.spcFile.length ≤ d)
    (hmove : firstHit (s.moveChecks m s.spcFile s.cfg.spcWidth d s.gpr s.vw x) = some .unimplementedRegister) :
    firstHit (s.specialWriteChecks m d x after) = some .unimplementedRegister := by
  have hmissing : missing s.spcFile d = true := (missing_eq_true ..).2 hd
  unfold State.specialWriteChecks
  rw [List.append_assoc, List.singleton_append, firstHit_cons_of_false _ _ (by simp [hmissing])]
  refine firstHit_append_of_some _ ?_
  split
  · rw [List.singleton_append, firstHit_cons_of_false _ _ (by simp [hmissing])]
    exact hmove
  · exact firstHit_append_of_some _ hmove

end

/-! ### System resources -/

/-- Settles O27: in each clause one check holds and those that rank before it pass, in either order of the bank check. -/
theorem systemResourcesAreProtected : Obligations.SystemResourcesAreProtected := by
  intro s m p d x refused bank parts touches ready
  have hready (h : ready) (hd : d < s.spcFile.length) :
      firstHit (s.moveChecks m s.spcFile s.cfg.spcWidth d s.gpr s.vw x) = none ∧ x < s.gpr.length := by
    obtain ⟨⟨_, hlacks, hgprParts, hregs⟩, hmode, hparts⟩ := h
    have hx : x < s.gpr.length := hregs x List.mem_cons_self
    exact ⟨firstHit_moveChecks_eq_none hmode hlacks hd hx hparts hgprParts, hx⟩
  refine ⟨fun hsys => ⟨?rete, ?retn, fun hd ⟨n, htouches, hn⟩ => ?user⟩, fun h hsys hd hbank => ?bank,
    fun h hsys hd ⟨n, htouches, hn⟩ hbank => ?readOnly, fun h hd => ?missing⟩
  case rete => exact exec_refused (i := .rete p) (firstHit_cons_of_true _ _ (by rw [hsys]; rfl))
  case retn => exact exec_refused (i := .retn p) (firstHit_cons_of_true _ _ (by rw [hsys]; rfl))
  case user =>
    have hreadOnly := (s.touchedEntries_any_eq_true d m.width _).2 ⟨n, htouches, (userReadOnly_eq_true s.cfg n).2 hn⟩
    exact exec_refused (i := .movSpcReg m d x) (State.firstHit_specialWriteChecks_of_user hsys hd hreadOnly)
  case bank =>
    obtain ⟨hmove, hx⟩ := hready h hd
    exact exec_refused (i := .movSpcReg m d x)
      (State.firstHit_specialWriteChecks_of_bank hsys hmove hd hx h.1.1 hbank)
  case readOnly =>
    have hreadOnly := (s.touchedEntries_any_eq_true d m.width _).2 ⟨n, htouches, (systemReadOnly_eq_true s.cfg n).2 hn⟩
    exact exec_refused (i := .movSpcReg m d x)
      (State.firstHit_specialWriteChecks_of_readOnly hsys (hready h hd).1 hbank hreadOnly)
  case missing =>
    obtain ⟨⟨_, hlacks, hgprParts, _⟩, hmode, hparts⟩ := h
    exact exec_refused (i := .movSpcReg m d x) (State.firstHit_specialWriteChecks_of_missingEntry hd
      (firstHit_moveChecks_of_missing hmode hlacks ((accessFits_eq_true ..).2 (.inr hparts))
        ((accessFits_eq_true ..).2 (.inr hgprParts)) (.inl hd)))

end Sys2Proof.Machine
end

section
/-! PROOFS. Stops (R419, U15): a refused fetch traps or leaves the undefined state of execution, and that state without a
reset is the one in which a step does not lead on. -/
namespace Sys2Proof.Machine

/-! ### The undefined state -/

/-- No event but a reset leads out of the undefined state (R419). -/
theorem State.errorState_receiveAll_of_noReset (es : List Event) (s : State) (h : s.errorState = true)
    (hreset : Event.reset ∉ es) : (s.receiveAll es).errorState = true := by
  induction es generalizing s with
  | nil => exact h
  | cons e es ih =>
    obtain ⟨hne, hrest⟩ := not_or.1 (mt List.mem_cons.2 hreset)
    refine ih _ ?_ hrest
    cases e with
    | reset => exact absurd rfl hne
    | dspException k => rw [State.receive]; split <;> exact h
    | _ => exact h

/-- A step in the undefined state in which no reset arrives stops (log 25). -/
theorem step_of_undefined {s : State} (herror : s.errorState = true)
    (hreset : ∀ es ∈ s.inputs.head?, Event.reset ∉ es) : step s = .fault .undefinedExecution := by
  have harrive : s.arrive.errorState = true := by
    cases hinputs : s.inputs with
    | nil => rwa [State.arrive_of_nil s hinputs]
    | cons now later =>
      rw [State.arrive_of_cons hinputs]
      exact State.errorState_receiveAll_of_noReset now _ herror (hreset now (by rw [hinputs]; rfl))
  rw [step, cycle, if_pos herror, if_pos harrive]

/-! ### What leads on -/

/-- No instruction is refused by the model and none stops it. -/
theorem exec_next (i : Instr) (s : State) : ∃ t, exec i s = .next t := by
  obtain ⟨work, h⟩ := exec_guarded i s
  exact ⟨_, h⟩

theorem fetchAndRun_next (s : State) : ∃ u, fetchAndRun s = .next u := by
  unfold fetchAndRun
  split
  · exact ⟨_, rfl⟩
  · split
    · exact exec_next _ _
    · exact ⟨_, rfl⟩

/-- Every step has a state in which its events arrive. -/
theorem exists_eventsMeet (s : State) : ∃ u, EventsMeet s u := by
  cases herror : s.errorState with
  | true => exact ⟨s, .inl ⟨herror, rfl⟩⟩
  | false =>
    cases hwaiting : s.waiting with
    | true => exact ⟨_, .inr (.inl ⟨herror, hwaiting, rfl⟩)⟩
    | false =>
      obtain ⟨u, hu⟩ := fetchAndRun_next s.ready
      exact ⟨u, .inr (.inr ⟨herror, hwaiting, hu⟩)⟩

/-- Settles O32: the events of a step meet some state, and it leads on where the core is or comes out of the undefined
state. -/
theorem onlyTheUndefinedStateStops : Obligations.OnlyTheUndefinedStateStops := by
  refine ⟨exec_next, fun s => ⟨step_of_undefined, fun h => ?_⟩⟩
  obtain ⟨u, hu⟩ := exists_eventsMeet s
  refine ⟨_, step_of_eventsMeet s u hu (h.imp_right ?_)⟩
  rintro ⟨now, hnow, hreset⟩
  obtain ⟨later, hinputs⟩ := List.head?_eq_some_iff.1 hnow
  rw [State.arrive_of_cons hinputs]
  exact State.errorState_receiveAll_of_reset now _ hreset

/-! ### A refused fetch (R419) -/

section
variable (s : State)

theorem State.fetchBusError_excMarked : ExcMarked s.exc s.fetchBusError.exc [.iSystemBusError] := by
  have hexc : s.fetchBusError.exc = markBits s.exc [.iSystemBusError] := by
    unfold State.fetchBusError
    dsimp only
    split <;> rfl
  rw [hexc]
  exact excMarked_markBits _ _

variable {s}

theorem State.fetchBusError_of_potent (h : s.potent .iSystemBusError = true) :
    s.fetchBusError = { s with
        exc := s.fetchBusError.exc, exi := s.lastWord, errorLine := true, erp := s.ic,
        savedE := some (savedBits s.scr), scr := s.fetchBusError.scr, ic := wrapIc s.cfg s.etb }
      ∧ ScrEntered s.scr s.fetchBusError.scr := by
  unfold State.fetchBusError
  dsimp only
  rw [if_pos h]
  exact ⟨rfl, scrEntered_withSavedBits s.scr⟩

theorem State.fetchBusError_of_not_potent (h : ¬s.potent .iSystemBusError = true) :
    s.fetchBusError
      = { s with exc := s.fetchBusError.exc, exi := s.lastWord, errorLine := true, errorState := true } := by
  unfold State.fetchBusError
  dsimp only
  rw [if_neg h]

theorem fetchAndRun_of_busError (hbus : s.busError .fetch s.fetchAddress 4 = true) :
    fetchAndRun s = .next s.fetchBusError :=
  if_pos hbus

end

/-- Settles O31: the step is that of a refused fetch at the boundary's IC; in the undefined state without an event it
stops. -/
theorem fetchBusErrorTrapsOrStops : Obligations.FetchBusErrorTrapsOrStops := by
  refine ⟨fun s herror hwaiting hbus => ?_, fun s herror hinputs => step_of_undefined herror (by simp [hinputs])⟩
  refine ⟨s.boundary.fetchBusError, ?step, s.boundary.fetchBusError_excMarked, ?_⟩
  case step =>
    rw [step_of_running herror hwaiting, fetchAndRun_of_busError hbus]
    rfl
  rw [← s.boundary_cfg]
  split
  · exact State.fetchBusError_of_potent ‹_›
  · exact State.fetchBusError_of_not_potent ‹_›

end Sys2Proof.Machine
end

section
/-! PROOFS. The state after reset (R471): the reference configuration is legal, every invariant holds of the state,
and the special registers have the values of the table. -/
namespace Sys2Proof

/-- An implementation that leaves no word out is regular (R11). -/
theorem Config.regular_of_lacking_nil {c : Config} (h : c.lacking = []) : c.regular = true := by
  simp [Config.regular, h]

/-- The reference configuration stands within the ranges of R10. -/
theorem Config.inRange_reference : Config.reference.inRange = true := by decide

theorem Config.legal_reference : Config.reference.legal = true :=
  Bool.and_eq_true_iff.2 ⟨Config.inRange_reference, Config.regular_of_lacking_nil rfl⟩

end Sys2Proof

namespace Sys2Proof.Machine

/-! ### The invariants -/

theorem fitsWidth_nil (width : Nat) : fitsWidth width [] := fun _ hmem => absurd hmem List.not_mem_nil

theorem fitsWidth_replicate (width n : Nat) {r : RegBits} (h : r.toNat < 2 ^ width) :
    fitsWidth width (List.replicate n r) :=
  fun _ hmem => List.eq_of_mem_replicate hmem ▸ h

/-- A register is 0 at reset (log 2), which is within every width. -/
theorem toNat_resetRegister_lt (width : Nat) : resetRegister.toNat < 2 ^ width :=
  BitVec.toNat_zero.trans_lt (Nat.two_pow_pos width)

/-- The GPR banks have the reference configuration's sizes (log 1), and it has no other register file. -/
theorem State.registersOk_reset : State.reset.registersOk := by
  refine ⟨Config.inRange_reference, List.length_replicate, Nat.one_pos, fun f hf => ?_, rfl, fitsWidth_nil _, rfl,
    fitsWidth_nil _, rfl⟩
  rw [List.eq_of_mem_replicate hf]
  exact ⟨List.length_replicate, fitsWidth_replicate _ _ (toNat_resetRegister_lt _)⟩

theorem State.counterOk_reset : State.reset.counterOk := ⟨Nat.two_pow_pos _, rfl⟩

theorem State.hiddenOk_reset : State.reset.hiddenOk := ⟨Nat.two_pow_pos _, fun _ => rfl, rfl, nofun⟩

/-- Settles O7: the invariants one by one, and the reference configuration leaves no word out. -/
theorem resetStateIsLegal : Obligations.ResetStateIsLegal :=
  ⟨⟨State.reset_mem_wf, rfl⟩, State.registersOk_reset, State.counterOk_reset, State.hiddenOk_reset, nofun,
    Config.legal_reference⟩

/-! ### The special registers -/

/-- IMP of the reference configuration, from the fields of R33. -/
theorem impValue_reference : impValue Config.reference = 0x0000601F00023E93 := by decide

@[simp] theorem lowEntry_zero : lowEntry 0#64 = 0#1024 := by simp [lowEntry]
@[simp] theorem highEntry_zero : highEntry 0#64 = 0#1024 := by simp [highEntry]
@[simp] theorem wordEntry_zero : wordEntry 0#32 = 0#1024 := by simp [wordEntry]

/-- The table of R471, entry by entry: IMP in two halves, SCR with SYSTEM MODE alone, the rest 0. -/
theorem State.spcFile_reset : State.reset.spcFile
    = [0x00023E93, 0x0000601F, 0, 0, 0, 0, 0, 0, 0, 0, 0, 0, 0, 0, 0, 1, 0, 0, 0, 0, 0, 0, 0, 0, 0, 0, 0] := by
  have himp : impValue State.reset.cfg = 0x0000601F00023E93 := impValue_reference
  have hlow : lowEntry 0x0000601F00023E93 = 0x00023E93 := congrArg (BitVec.ofNat 1024) (by decide)
  have hhigh : highEntry 0x0000601F00023E93 = 0x0000601F := congrArg (BitVec.ofNat 1024) (by decide)
  have hscr : wordEntry State.reset.scr = 1 := congrArg (BitVec.ofNat 1024) (by decide)
  rw [State.spcFile, himp, hlow, hhigh, hscr]
  simp [State.reset]

/-- Settles O11: the special registers by their table, the hidden state as the reset sets it. -/
theorem resetValues : Obligations.ResetValues :=
  ⟨rfl, State.spcFile_reset, rfl, rfl, rfl, rfl, rfl, rfl, rfl, rfl, rfl, rfl, rfl, rfl⟩

end Sys2Proof.Machine
end
